-- ==== Sys2Proof/Word.lean ====
section
/-! DEFINITION. The byte and the closed sets of names the spec's text uses for registers, synchronizer states,
descriptor sets, decode shapes and command templates. No arithmetic lives here. -/

namespace Sys2Proof

/-- A byte, 8 bits, bit 0 least significant (00_scope.md R14). -/
abbrev Byte := BitVec 8

/-- The two states of the synchronizer (10_state.md R25). -/
inductive SynState where
  | scanning
  | synced
deriving DecidableEq, Repr, Inhabited

/-- The control and status registers a host request names (10_state.md R33): CR0, CR1, CR2, SR0. -/
inductive Reg where
  | expDs
  | expFd
  | cfg
  | status
deriving DecidableEq, Repr, Inhabited

/-- The closed enumeration of descriptor sets, `P_DS_ENUM` (30_encoding.md R89, decision D12):
DS.SYS, DS.3DM, DS.GNSS, DS.FILT, DS.SENS. -/
inductive DescriptorSet where
  | sys
  | threeDm
  | gnss
  | filt
  | sens
deriving DecidableEq, Repr, Inhabited

/-- The decode shapes of the table `P_SHAPES` (45_extractor.md R181). -/
inductive Shape where
  | accel
  | gpsTime
  | raw
deriving DecidableEq, Repr, Inhabited

/-- The eight command templates (47_command_templates.md R210). -/
inductive TemplateName where
  | idle
  | resume
  | ppsSource
  | ppsPulse
  | gnssOffset
  | msgFormat
  | streamEn
  | poll
deriving DecidableEq, Repr, Inhabited

/-- The class of an operation, the "format" column of the opcode table (30_encoding.md R104): host request,
receive stimulus, wire pattern, command template. -/
inductive OpClass where
  | hostRequest
  | receive
  | wire
  | template
deriving DecidableEq, Repr, Inhabited

end Sys2Proof
end

