-- ==== Sys2Proof/Config.lean ====
section
/-! DEFINITION. The instance parameters of 00_scope.md R12. Values the spec fixes are plain definitions; a parameter the
spec marks OPEN is an opaque constant, so that nothing proved about the model can rest on its value; the free values that stand for what the spec
leaves unspecified are opaque constants too. -/

namespace Sys2Proof.Config

/-- `P_SYNC0`, first sync-marker byte (R12). -/
def sync0 : Byte := 0x75

/-- `P_SYNC1`, second sync-marker byte (R12). -/
def sync1 : Byte := 0x65

/-- `P_MIN_FRAME` (R12): header 4 and checksum 2. -/
def minFrame : Nat := 6

/-- `P_MAX_N`, greatest payload length (R12). -/
def maxPayload : Nat := 255

/-- `P_MAX_FRAME`, greatest frame length and the size of `RX_BUF` and `TX_BUF` (R12, 10_state.md R29). -/
def maxFrame : Nat := 261

/-- Most data bytes one field carries (46_builder.md R196, R203). -/
def maxFieldData : Nat := 253

/-- `P_GRAVITY`, standard gravity in m/s² for the scaling from g (R12). -/
def gravity : Rat := 980665 / 100000

/-- `P_DS_ENUM` as byte values (R12, 30_encoding.md R89). -/
def dsEnum : List Byte := [0x01, 0x0C, 0x0D, 0x13, 0x80]

/-- The four command sets among them, whose fields are RAW (30_encoding.md R89, 45_extractor.md R181). -/
def commandSets : List Byte := [0x01, 0x0C, 0x0D, 0x13]

/-- The fixed parameters of one command template (47_command_templates.md R211): `T.ds`, `T.fd`, `T.pre`. -/
structure Template where
  ds  : DescriptorSet
  fd  : Byte
  pre : List Byte
deriving DecidableEq, Repr, Inhabited

/-- `P_TEMPLATES` as the instance supplies it, OPEN (R12, 47_command_templates.md R211, 93 U13; log entry 8). -/
opaque suppliedTemplate : TemplateName → Template

/-- `P_DECIM_BYTES` as the instance supplies it, OPEN (R12, 47_command_templates.md R217; log entry 9). -/
opaque suppliedDecimBytes : Nat

/-- `P_DECIM_BYTES`, bounded so that the two tags and the decimation fit one field (47_command_templates.md R211:
prefix plus operands at most 253 bytes; log entry 9). -/
def decimBytes : Nat := min suppliedDecimBytes 251

/-- How many of the 253 data bytes the operands of fixed width take (47_command_templates.md R211). -/
def fixedOperandBytes : TemplateName → Nat
  | .gnssOffset => 12
  | .msgFormat => 2 + decimBytes
  | .idle | .resume | .ppsSource | .ppsPulse | .streamEn | .poll => 0

/-- The two cells of the template table that the spec fixes: `GNSS_OFFSET.ds = 0x0D` and `MSG_FORMAT.fd = 0x0F`
(47_command_templates.md R211, decision D25). -/
def withFixedCells (t : TemplateName) (p : Template) : Template :=
  match t with
  | .gnssOffset => { p with ds := .gnss }
  | .msgFormat => { p with fd := 0x0F }
  | .idle | .resume | .ppsSource | .ppsPulse | .streamEn | .poll => p

/-- `P_TEMPLATES`: every legal table is one value of `suppliedTemplate`, and every value is cut to a legal one
(`T.ds` in `P_DS_ENUM` by its type, prefix and fixed operands at most 253 bytes; 47_command_templates.md R211; log entry 8). -/
def template (t : TemplateName) : Template :=
  let p := withFixedCells t (suppliedTemplate t)
  { p with pre := p.pre.take (maxFieldData - fixedOperandBytes t) }

/-- `P_SCALE`, the multiplication of a binary32 pattern by `P_GRAVITY` (`gravity`), OPEN and applied outside the engine
(R12, 45_extractor.md R184, 93 U4; log entry 10). -/
opaque scale : BitVec 32 → BitVec 32

/-- FREE VALUE: the byte of `TX_BUF` at an address after the given draw (10_state.md R29: unspecified; log entry 5). -/
opaque scratchByte : Nat → Nat → Byte

/-- FREE VALUE: `TX_LEN` after the given draw (10_state.md R29: unspecified; log entry 5). -/
opaque scratchLen : Nat → BitVec 9

end Sys2Proof.Config
end

