-- ==== Sys2Proof/Syntax.lean ====
section
/-! DEFINITION. The operations of the engine: one constructor per row of spec/opcode_table.json, in the table's order
(30_encoding.md R100). -/

namespace Sys2Proof

/-- An operation with its operands, in the names of 30_encoding.md R100. -/
inductive Instr where
  | cksClr
  | cksUpd (b : Byte)
  | cksRd
  | cksSpan (s : List Byte)
  | synRearm
  | decDecode (buf : List Byte) (ds : Byte) (fds : BitVec 256)
  | bldBuild (ds : Byte) (fields : List (Byte × List Byte))
  | cfgWr (reg : Reg) (v : BitVec 256)
  | cfgRd (reg : Reg)
  | reserved9
  | reservedA
  | reservedB
  | reservedC
  | reservedD
  | reservedE
  | reservedF
  | synByte (b : Byte)
  | rxcByte (b : Byte)
  | synDeadline
  | rxcDeadline
  | extAccel (d : List Byte)
  | extGpstime (d : List Byte)
  | extRaw (ds fd : Byte) (d : List Byte)
  | cmdIdle
  | cmdResume
  | cmdPpsSource (p : List Byte)
  | cmdPpsPulse (p : List Byte)
  | cmdGnssOffset (x y z : BitVec 32)
  | cmdMsgFormat (tds tfd : Byte) (dec : Nat)
  | cmdStreamEn (p : List Byte)
  | cmdPoll (p : List Byte)
deriving DecidableEq, Repr

end Sys2Proof
end

