-- ==== Sys2Proof/WellFormed.lean ====
section
/-! DEFINITION. Which operand values an operation admits. -/

namespace Sys2Proof

/-- Width in bits of a control or status register (10_state.md R33). -/
def Reg.width : Reg → Nat
  | .expDs => 8
  | .expFd => 256
  | .cfg => 8
  | .status => 8

/-- The operand ranges: `CFG.WR` takes a value of its register's width (48_system_ops.md R233); a wire field has at most
253 data bytes and a RAW field lies in a command set (30_encoding.md R83, 45_extractor.md R187); the decimation has
`P_DECIM_BYTES` bytes (47_command_templates.md R217). Every other operand admits all its values. -/
def Instr.wf : Instr → Bool
  | .cksClr => true
  | .cksUpd _ => true
  | .cksRd => true
  | .cksSpan _ => true
  | .synRearm => true
  | .decDecode _ _ _ => true
  | .bldBuild _ _ => true
  | .cfgWr reg v => decide (v.toNat < 2 ^ reg.width)
  | .cfgRd _ => true
  | .reserved9 => true
  | .reservedA => true
  | .reservedB => true
  | .reservedC => true
  | .reservedD => true
  | .reservedE => true
  | .reservedF => true
  | .synByte _ => true
  | .rxcByte _ => true
  | .synDeadline => true
  | .rxcDeadline => true
  | .extAccel d => decide (d.length ≤ Config.maxFieldData)
  | .extGpstime d => decide (d.length ≤ Config.maxFieldData)
  | .extRaw ds _ d => decide (ds ∈ Config.commandSets) && decide (d.length ≤ Config.maxFieldData)
  | .cmdIdle => true
  | .cmdResume => true
  | .cmdPpsSource _ => true
  | .cmdPpsPulse _ => true
  | .cmdGnssOffset _ _ _ => true
  | .cmdMsgFormat _ _ dec => decide (dec < 256 ^ Config.decimBytes)
  | .cmdStreamEn _ => true
  | .cmdPoll _ => true

end Sys2Proof
end

