-- ==== Sys2Proof/Decode.lean ====
section
/-! DEFINITION. What reaches the engine (a stimulus), the operation each stimulus selects, and the encoder back
(30_encoding.md R100, R103, R104). -/

namespace Sys2Proof

/-- The operands a host request or a template carries. An operation reads those its row lists (30_encoding.md R100) and
ignores the others. The spec gives the operands but no transport for them (R104: the keys bind to no bus): log entry 1. -/
structure Operands where
  b      : Byte := 0
  bytes  : List Byte := []
  ds     : Byte := 0
  fds    : BitVec 256 := 0
  fields : List (Byte × List Byte) := []
  reg    : Reg := .expDs
  value  : BitVec 256 := 0
  x      : BitVec 32 := 0
  y      : BitVec 32 := 0
  z      : BitVec 32 := 0
  tag    : Byte := 0
  number : Nat := 0
deriving DecidableEq, Repr

/-- One element of the input sequence (10_state.md R20, R39; 70_reset_and_hazards.md R280). `field` is the key of a class W row
with the data bytes that follow it on the wire (30_encoding.md R104; log entry 7). -/
inductive Stimulus where
  | rxByte (b : Byte)
  | rxDeadline
  | request (opsel : BitVec 4) (o : Operands)
  | template (t : TemplateName) (o : Operands)
  | field (key : BitVec 24) (data : List Byte)
  | reset
deriving DecidableEq, Repr

/-- Why a stimulus selects no operation of the table. -/
inductive Reject where
  /-- the `reset` event, which is no operation (70_reset_and_hazards.md R280) -/
  | resetEvent
  /-- a descriptor of the data set that has no shape (45_extractor.md R181, R188) -/
  | noShape (fd : Byte)
  /-- a field key of a set outside the enumeration (30_encoding.md R89) -/
  | unknownSet (ds : Byte)
  /-- a RAW field whose `field_length` is 0 or 1 (30_encoding.md R93) -/
  | reservedLength
  /-- fewer data bytes than `field_length` announces -/
  | fieldCutShort
deriving DecidableEq, Repr

/-- `P_SHAPES` (45_extractor.md R181). -/
def shapeOf (ds fd : Byte) : Option Shape :=
  if ds = 0x80 then
    if fd = 0x04 then some .accel else if fd = 0xD3 then some .gpsTime else none
  else if ds ∈ Config.commandSets then some .raw
  else none

/-- A value as a register of its width receives it (48_system_ops.md R233). -/
def atWidth (reg : Reg) (v : BitVec 256) : BitVec 256 :=
  match reg with
  | .expFd => v
  | .expDs | .cfg | .status => (v.setWidth 8).setWidth 256

/-- The operation an `OPSEL` selects (30_encoding.md R100, class H). -/
def decodeRequest (opsel : BitVec 4) (o : Operands) : Instr :=
  match opsel.toNat with
  | 0x0 => .cksClr
  | 0x1 => .cksUpd o.b
  | 0x2 => .cksRd
  | 0x3 => .cksSpan o.bytes
  | 0x4 => .synRearm
  | 0x5 => .decDecode o.bytes o.ds o.fds
  | 0x6 => .bldBuild o.ds o.fields
  | 0x7 => .cfgWr o.reg (atWidth o.reg o.value)
  | 0x8 => .cfgRd o.reg
  | 0x9 => .reserved9
  | 0xA => .reservedA
  | 0xB => .reservedB
  | 0xC => .reservedC
  | 0xD => .reservedD
  | 0xE => .reservedE
  | _ => .reservedF

/-- The command a template name selects (30_encoding.md R100, class P; 47_command_templates.md R212 to R219). -/
def decodeTemplate (t : TemplateName) (o : Operands) : Instr :=
  match t with
  | .idle => .cmdIdle
  | .resume => .cmdResume
  | .ppsSource => .cmdPpsSource o.bytes
  | .ppsPulse => .cmdPpsPulse o.bytes
  | .gnssOffset => .cmdGnssOffset o.x o.y o.z
  | .msgFormat => .cmdMsgFormat o.ds o.tag (o.number % 256 ^ Config.decimBytes)
  | .streamEn => .cmdStreamEn o.bytes
  | .poll => .cmdPoll o.bytes

/-- Descriptor set of a class W key, bits 23:16 (30_encoding.md R104). -/
def keySet (key : BitVec 24) : Byte := key.extractLsb' 16 8

/-- `field_length` of a class W key, bits 15:8. -/
def keyLength (key : BitVec 24) : Byte := key.extractLsb' 8 8

/-- Field descriptor of a class W key, bits 7:0. -/
def keyDescriptor (key : BitVec 24) : Byte := key.extractLsb' 0 8

/-- How many data bytes a field of this length has: the length counts its two header bytes (30_encoding.md R84). -/
def dataCount (fieldLength : Byte) : Nat := fieldLength.toNat - 2

/-- The extraction a field selects through `P_SHAPES` (30_encoding.md R103, class W). -/
def decodeField (key : BitVec 24) (data : List Byte) : Except Reject Instr :=
  if data.length < dataCount (keyLength key) then .error .fieldCutShort
  else
    let d := data.take (dataCount (keyLength key))
    match shapeOf (keySet key) (keyDescriptor key) with
    | some .accel => .ok (.extAccel d)
    | some .gpsTime => .ok (.extGpstime d)
    | some .raw =>
      if (keyLength key).toNat < 2 then .error .reservedLength
      else .ok (.extRaw (keySet key) (keyDescriptor key) d)
    | none =>
      if keySet key ∈ Config.dsEnum then .error (.noShape (keyDescriptor key))
      else .error (.unknownSet (keySet key))

/-- The operation a stimulus selects: a receive stimulus by `SYN_STATE` alone, a host request by `OPSEL`, a template by its
name, a field by its set and descriptor (30_encoding.md R103). Total: what selects nothing is rejected by name. -/
def decode (st : SynState) : Stimulus → Except Reject Instr
  | .rxByte b =>
    match st with
    | .scanning => .ok (.synByte b)
    | .synced => .ok (.rxcByte b)
  | .rxDeadline =>
    match st with
    | .scanning => .ok .synDeadline
    | .synced => .ok .rxcDeadline
  | .request opsel o => .ok (decodeRequest opsel o)
  | .template t o => .ok (decodeTemplate t o)
  | .field key data => decodeField key data
  | .reset => .error .resetEvent

/-- A class W key from its three bytes (30_encoding.md R104). -/
def fieldKey (ds fieldLength fd : Byte) : BitVec 24 := ds ++ fieldLength ++ fd

/-- The field a class W operation stands for: set, descriptor and data, with the length byte `2 + |data|`
(30_encoding.md R83, R84). -/
def encodeField (ds fd : Byte) (d : List Byte) : Stimulus :=
  .field (fieldKey ds (BitVec.ofNat 8 (d.length + 2)) fd) d

/-- The stimulus of an operation (30_encoding.md R100); operands its row does not list are zero. -/
def encode : Instr → Stimulus
  | .cksClr => .request 0x0 {}
  | .cksUpd b => .request 0x1 { b := b }
  | .cksRd => .request 0x2 {}
  | .cksSpan s => .request 0x3 { bytes := s }
  | .synRearm => .request 0x4 {}
  | .decDecode buf ds fds => .request 0x5 { bytes := buf, ds := ds, fds := fds }
  | .bldBuild ds fields => .request 0x6 { ds := ds, fields := fields }
  | .cfgWr reg v => .request 0x7 { reg := reg, value := v }
  | .cfgRd reg => .request 0x8 { reg := reg }
  | .reserved9 => .request 0x9 {}
  | .reservedA => .request 0xA {}
  | .reservedB => .request 0xB {}
  | .reservedC => .request 0xC {}
  | .reservedD => .request 0xD {}
  | .reservedE => .request 0xE {}
  | .reservedF => .request 0xF {}
  | .synByte b => .rxByte b
  | .rxcByte b => .rxByte b
  | .synDeadline => .rxDeadline
  | .rxcDeadline => .rxDeadline
  | .extAccel d => encodeField 0x80 0x04 d
  | .extGpstime d => encodeField 0x80 0xD3 d
  | .extRaw ds fd d => encodeField ds fd d
  | .cmdIdle => .template .idle {}
  | .cmdResume => .template .resume {}
  | .cmdPpsSource p => .template .ppsSource { bytes := p }
  | .cmdPpsPulse p => .template .ppsPulse { bytes := p }
  | .cmdGnssOffset x y z => .template .gnssOffset { x := x, y := y, z := z }
  | .cmdMsgFormat tds tfd dec => .template .msgFormat { ds := tds, tag := tfd, number := dec }
  | .cmdStreamEn p => .template .streamEn { bytes := p }
  | .cmdPoll p => .template .poll { bytes := p }

/-- The `SYN_STATE` that the key of a class R row names; other rows name none (30_encoding.md R104). -/
def keyState : Instr → Option SynState
  | .synByte _ => some .scanning
  | .synDeadline => some .scanning
  | .rxcByte _ => some .synced
  | .rxcDeadline => some .synced
  | _ => none

/-- The class of an operation's row (30_encoding.md R100). -/
def Instr.opClass : Instr → OpClass
  | .cksClr | .cksUpd _ | .cksRd | .cksSpan _ | .synRearm | .decDecode _ _ _ | .bldBuild _ _ | .cfgWr _ _ | .cfgRd _
  | .reserved9 | .reservedA | .reservedB | .reservedC | .reservedD | .reservedE | .reservedF => .hostRequest
  | .synByte _ | .rxcByte _ | .synDeadline | .rxcDeadline => .receive
  | .extAccel _ | .extGpstime _ | .extRaw _ _ _ => .wire
  | .cmdIdle | .cmdResume | .cmdPpsSource _ | .cmdPpsPulse _ | .cmdGnssOffset _ _ _ | .cmdMsgFormat _ _ _
  | .cmdStreamEn _ | .cmdPoll _ => .template

/-- The class of a stimulus; the `reset` event has none. -/
def Stimulus.opClass : Stimulus → Option OpClass
  | .rxByte _ | .rxDeadline => some .receive
  | .request _ _ => some .hostRequest
  | .template _ _ => some .template
  | .field _ _ => some .wire
  | .reset => none

/-- The stimulus whose key is the table word `w` of `nbits` bits, all operands zero: 8 bits hold an `OPSEL`, 16 bits the ten bits
of a class R key (kind bit 9, state bit 8, byte bits 7:0), 24 bits a class W key (30_encoding.md R104; log entry 1). Class P
rows have no key. -/
def tableStimulus (nbits w : Nat) : Option Stimulus :=
  if nbits ≤ 8 then
    if w < 16 then some (.request (BitVec.ofNat 4 w) {}) else none
  else if nbits ≤ 16 then
    if w < 1024 then
      if w / 512 = 0 then some (.rxByte (BitVec.ofNat 8 w)) else some .rxDeadline
    else none
  else if nbits ≤ 24 then
    if w < 2 ^ 24 then
      let key := BitVec.ofNat 24 w
      some (.field key (List.replicate (dataCount (keyLength key)) 0))
    else none
  else none

/-- The `SYN_STATE` bit of a class R table word; other words name no state (30_encoding.md R104). -/
def tableState (nbits w : Nat) : Option SynState :=
  if 8 < nbits ∧ nbits ≤ 16 then
    if w / 256 % 2 = 0 then some .scanning else some .synced
  else none

/-- The operation the decoder reads from a word of the opcode table. -/
def decodeTableWord (nbits w : Nat) : Option Instr :=
  match tableStimulus nbits w with
  | none => none
  | some x =>
    match decode ((tableState nbits w).getD .scanning) x with
    | .ok i => some i
    | .error _ => none

end Sys2Proof
end

