-- ==== Sys2Proof/Machine/State.lean ====
section
/-! DEFINITION. The state of the engine (10_state.md R21), the outputs and the input that belong to its environment
(R35, R39), the values that pass between them, the reset state (R38), and the reasons a step can stop. -/

namespace Sys2Proof.Machine

/-- A byte buffer addressed by frame offset: cells at strictly rising addresses; an address not listed has no value
(10_state.md R40; log entry 4). -/
abbrev Memory := List Host.Cell

/-- A typed field (45_extractor.md R180): bit patterns and raw bytes, never numbers. -/
inductive TypedField where
  | accel (x y z : BitVec 32) (unitsG : Bool)
  | gpsTime (tow : BitVec 64) (week : BitVec 16)
  | raw (fd : Byte) (data : List Byte)
deriving DecidableEq, Repr

/-- A decoded record (44_decoder.md R171). -/
structure Record where
  descriptorSet : Byte
  fields        : List TypedField
deriving DecidableEq, Repr

/-- The tag of a record (44_decoder.md R172). -/
inductive RecordTag where
  | empty
  | accel
  | towAccel
  | generic
deriving DecidableEq, Repr

/-- The errors with the information each records (60_exceptions.md R241). -/
inductive ErrorEvent where
  | syncTimeout
  | checksumMismatch (expected actual : Byte × Byte)
  | unexpectedDescriptorSet (actual : Byte)
  | unexpectedFieldDescriptor (actual : Byte)
  | truncatedFrame
  | unsupportedField (actual : Byte)
  /-- the orchestrator's; no operation of the engine raises it (60_exceptions.md R247) -/
  | ackMismatch
  | badSync (actual : Byte × Byte)
  | malformedField (offset : Nat)
  | badDescriptorSet (ds : Byte)
  | fieldTooLong (index : Nat)
  | payloadTooLong (sum : Nat)
deriving DecidableEq, Repr

/-- The result of `decode`: `Ok(record)` or `Err(error, info)` (44_decoder.md R156). -/
inductive DecodeResult where
  | ok (r : Record)
  | err (e : ErrorEvent)
deriving DecidableEq, Repr

/-- The result of one extraction (45_extractor.md R182, R188). -/
inductive ExtractResult where
  | ok (v : TypedField)
  | err (e : ErrorEvent)
deriving DecidableEq, Repr

/-- The result of `build` (46_builder.md R196). -/
inductive BuildResult where
  | ok (frame : List Byte)
  | refused (e : ErrorEvent)
deriving DecidableEq, Repr

/-- The value of a request, handed back to the requester (48_system_ops.md R237; log entry 3). -/
inductive Response where
  /-- `(A, B)` of `CKS.RD` and `CKS.SPAN` (41_checksum.md R113, R114) -/
  | checksum (a b : Byte)
  /-- the result of a direct-mode `DEC.DECODE` (44_decoder.md R156) -/
  | decoded (r : DecodeResult)
  /-- the result of a class W operation run as a step of its own (log entry 7) -/
  | extracted (r : ExtractResult)
  /-- the value of a register, reserved bits 0 (48_system_ops.md R234) -/
  | register (reg : Reg) (v : BitVec 256)
  /-- a request with a reserved `OPSEL`, reported as refused (48_system_ops.md R235; log entry 11) -/
  | refused (opsel : BitVec 4)
deriving DecidableEq, Repr

/-- The whole machine. -/
structure State where
  /-- `CKS.A` (10_state.md R22) -/
  cksA : Byte
  /-- `CKS.B` (R22) -/
  cksB : Byte
  /-- `SYN_STATE` (R25) -/
  synState : SynState
  /-- `SYN_HALF` (R28) -/
  synHalf : Bool
  /-- `RX_IDX` (R27) -/
  rxIdx : BitVec 9
  /-- `RX_BUF` (R29) -/
  rxBuf : Memory
  /-- `TX_BUF`, scratch (R29) -/
  txBuf : Memory
  /-- `TX_LEN`, scratch (R29) -/
  txLen : BitVec 9
  /-- `EXP_DS`, CR0 (R30) -/
  expDs : Byte
  /-- `EXP_FD`, CR1 (R31) -/
  expFd : BitVec 256
  /-- `CFG`, CR2 (R32) -/
  cfg : BitVec 8
  /-- the input sequence not yet delivered, next stimulus first (R20, R39; log entry 2) -/
  stimuli : List Stimulus
  /-- the transmit stream (R35 b) -/
  txStream : List Byte
  /-- the record output (R35 c) -/
  records : List Record
  /-- the error output (R35 d) -/
  errors : List ErrorEvent
  /-- the values returned to requesters (log entry 3) -/
  responses : List Response
  /-- the model's own: free draws taken for `TX_BUF` and `TX_LEN` (log entry 5) -/
  scratchDraws : Nat
deriving DecidableEq, Repr

/-- The state after reset (10_state.md R38, 70_reset_and_hazards.md R281). -/
def State.reset : State where
  cksA := 0x00
  cksB := 0x00
  synState := .scanning
  synHalf := false
  rxIdx := 0
  rxBuf := []
  txBuf := []
  txLen := 0
  expDs := 0x00
  expFd := 0
  cfg := 0x00
  stimuli := []
  txStream := []
  records := []
  errors := []
  responses := []
  scratchDraws := 0

/-- Why a step stops with a fault. -/
inductive Fault where
  /-- Raised by `step` when the input sequence is exhausted: the run has ended (10_state.md R39); waiting is not a step
  (42_synchronizer.md R131). Safe. -/
  | noStimulus
  /-- Raised by `RXC.BYTE` when `RX_IDX` is above 260, an address `RX_BUF` does not have (20_memory.md R60); no reachable
  state has it (10_state.md R37). Safe. -/
  | rxBufOverrun
  /-- Raised by `RXC.BYTE` when it reads a cell of `RX_BUF` that nothing has written (10_state.md R40); no reachable state
  does. Safe. -/
  | rxBufUnreadable
deriving DecidableEq, Repr

/-- Why a step is refused. -/
inductive Refusal where
  /-- Raised by an arm of `exec` whose instruction has no meaning yet. Safe. -/
  | notModelled (mnemonic : String)
  /-- Raised by `step` for a class W key of a set outside the enumeration, which the validator never hands to the extractor
  (45_extractor.md R182; log entry 7). Safe. -/
  | fieldOfUnknownSet (ds : Byte)
  /-- Raised by `step` for a RAW field key whose length byte is 0 or 1, which describes no field (30_encoding.md R93; log entry
  7). Safe. -/
  | fieldOfReservedLength
  /-- Raised by `step` for a field key with fewer data bytes than its length byte announces: no such field exists (log entry 7).
  Safe. -/
  | fieldCutShort
deriving DecidableEq, Repr

end Sys2Proof.Machine
end

