-- ==== Sys2Proof/Machine/Ops.lean ====
section
/-! DEFINITION. The named operations over the buffers, the registers and the outputs that the meanings are written in, the
raising of an error (60_exceptions.md R253) and the recovery that goes with it (R257). -/

namespace Sys2Proof.Machine

/-! ## Buffers -/

/-- The byte a buffer holds at an address, if something has written it (10_state.md R40). -/
def memRead : Memory → Nat → Option Byte
  | [], _ => none
  | (k, v) :: rest, a => if k = a then some v else memRead rest a

/-- The buffer with one byte written, addresses still rising. -/
def memWrite : Memory → Nat → Byte → Memory
  | [], a, b => [(a, b)]
  | (k, v) :: rest, a, b =>
    if a < k then (a, b) :: (k, v) :: rest
    else if a = k then (a, b) :: rest
    else (k, v) :: memWrite rest a b

/-- The canonical form of a buffer: strictly rising addresses. An unlisted address has no value, so no entry can equal it. -/
abbrev Memory.wf (m : Memory) : Prop := (m.map Prod.fst).Pairwise (· < ·)

/-- Every listed address is one of the buffer's 261 (10_state.md R29, 20_memory.md R50). -/
abbrev Memory.within (m : Memory) : Prop := ∀ a ∈ m.map Prod.fst, a < Config.maxFrame

/-- `MemRead(RX_BUF, a, 1)`, defined only below `RX_IDX` (20_memory.md R60). -/
def rxRead (s : State) (a : Nat) : Option Byte :=
  if a < s.rxIdx.toNat then memRead s.rxBuf a else none

/-- The `n` bytes of a buffer from address `a` on, if each has a value. -/
def memSpan (m : Memory) (a : Nat) : Nat → Option (List Byte)
  | 0 => some []
  | n + 1 =>
    match memRead m a, memSpan m (a + 1) n with
    | some b, some bs => some (b :: bs)
    | _, _ => none

/-- `RX_BUF[0 .. RX_IDX)`, the bytes of the frame collected so far (43_collector.md R142). -/
def rxFrame (s : State) : Option (List Byte) := memSpan s.rxBuf 0 s.rxIdx.toNat

/-- `RX_BUF[RX_IDX] <- b; RX_IDX <- RX_IDX + 1` (43_collector.md R142). -/
def storeRx (b : Byte) (s : State) : State :=
  { s with rxBuf := memWrite s.rxBuf s.rxIdx.toNat b, rxIdx := s.rxIdx + 1 }

/-- The bytes of `TX_BUF` after the given free draw: unspecified, one free byte at each address (10_state.md R29; log entry 5). -/
def scratchCells (draw : Nat) : Memory :=
  (List.range Config.maxFrame).map fun a => (a, Config.scratchByte draw a)

/-- What a `BLD.BUILD` leaves in its scratch `TX_BUF`, `TX_LEN`: free values (10_state.md R29, R21; log entry 5). -/
def dropScratch (s : State) : State :=
  { s with txBuf := scratchCells s.scratchDraws, txLen := Config.scratchLen s.scratchDraws,
           scratchDraws := s.scratchDraws + 1 }

/-! ## Registers -/

/-- `CKS.A`, `CKS.B` (10_state.md R22). -/
def setCks (ab : Byte × Byte) (s : State) : State := { s with cksA := ab.1, cksB := ab.2 }

/-- `SYN_HALF` (10_state.md R28). -/
def setHalf (h : Bool) (s : State) : State := { s with synHalf := h }

/-- `EXP_DS` (10_state.md R30). -/
def setExpDs (v : Byte) (s : State) : State := { s with expDs := v }

/-- `EXP_FD` (10_state.md R31). -/
def setExpFd (v : BitVec 256) (s : State) : State := { s with expFd := v }

/-- `CFG` (10_state.md R32). -/
def setCfg (v : BitVec 8) (s : State) : State := { s with cfg := v }

/-- The return to Scanning: `SYN_STATE <- Scanning; SYN_HALF <- 0; RX_IDX <- 0` (43_collector.md R145, R147, 48_system_ops.md
R231). It is also the whole recovery from an error of the receive path: there is no other return (60_exceptions.md R257). -/
def toScanning (s : State) : State := { s with synState := .scanning, synHalf := false, rxIdx := 0 }

/-- A marker matched: both marker bytes stored, `RX_IDX <- 2`, `SYN_STATE <- Synced` (42_synchronizer.md R127, R129). -/
def enterSynced (s : State) : State :=
  { s with synHalf := false,
           rxBuf := memWrite (memWrite s.rxBuf 0 Config.sync0) 1 Config.sync1,
           rxIdx := 2, synState := .synced }

/-- The `reset` event: every state element takes its reset value and nothing is emitted; the environment's sequences are not
state elements and stay (70_reset_and_hazards.md R280, R281; log entry 12). -/
def resetEvent (s : State) : State :=
  { State.reset with
      stimuli := s.stimuli, txStream := s.txStream, records := s.records, errors := s.errors,
      responses := s.responses, scratchDraws := s.scratchDraws }

/-! ## Outputs -/

/-- `emit_tx(f)`: the bytes of a frame, offset 0 first (00_scope.md R16, 46_builder.md R201). -/
def emitTx (f : List Byte) (s : State) : State := { s with txStream := s.txStream ++ f }

/-- `emit_record(r)` (00_scope.md R16). -/
def emitRecord (r : Record) (s : State) : State := { s with records := s.records ++ [r] }

/-- The value of a request goes back to the requester (48_system_ops.md R237; log entry 3). -/
def respond (r : Response) (s : State) : State := { s with responses := s.responses ++ [r] }

/-- RAISING AN ERROR: `(code, info)` is appended to the error output and everything else stays; the state changes of R253's table
are the raising operation's own. Nothing is saved and control goes nowhere (60_exceptions.md R240, R253). -/
def raiseError (e : ErrorEvent) (s : State) : State := { s with errors := s.errors ++ [e] }

/-- The numeric code of an error (60_exceptions.md R241). -/
def ErrorEvent.code : ErrorEvent → Nat
  | .syncTimeout => 1
  | .checksumMismatch _ _ => 2
  | .unexpectedDescriptorSet _ => 3
  | .unexpectedFieldDescriptor _ => 4
  | .truncatedFrame => 5
  | .unsupportedField _ => 6
  | .ackMismatch => 7
  | .badSync _ => 8
  | .malformedField _ => 9
  | .badDescriptorSet _ => 10
  | .fieldTooLong _ => 11
  | .payloadTooLong _ => 12

/-- A frame's one output: its record, or the error that stands for it (43_collector.md R142, R146). -/
def postResult (r : DecodeResult) (s : State) : State :=
  match r with
  | .ok rec => emitRecord rec s
  | .err e => raiseError e s

/-! ## The input sequence -/

/-- The next stimulus, consumed (20_memory.md R59, R62). -/
def fetch (s : State) : Option (Stimulus × State) :=
  match s.stimuli with
  | [] => none
  | x :: rest => some (x, { s with stimuli := rest })

/-- What the engine does with a stimulus that selects no operation of the table. -/
def offTable (r : Reject) (s : State) : Host.Outcome State Fault Refusal :=
  match r with
  | .resetEvent => .next (resetEvent s)
  | .noShape fd => .next (respond (.extracted (.err (.unsupportedField fd))) s)
  | .unknownSet ds => .refused (.fieldOfUnknownSet ds)
  | .reservedLength => .refused .fieldOfReservedLength
  | .fieldCutShort => .refused .fieldCutShort

/-- The receive path in the given synchronizer state: unchanged where it is in it, else just returned to Scanning or just past a
marker (only `withFetchWord` uses it; log entry 2). -/
def receiveIn (st : SynState) (s : State) : State :=
  if s.synState = st then s
  else
    match st with
    | .scanning => toScanning s
    | .synced => enterSynced s

/-- The state with one stimulus put before the others. -/
def pushStimulus (x : Stimulus) (s : State) : State := { s with stimuli := x :: s.stimuli }

end Sys2Proof.Machine
end

