-- ==== Sys2Proof/Machine/Operands.lean ====
section
/-! DEFINITION. Operand forms: the assembly of multi-byte values from bytes and back (30_encoding.md R86), bytes of a frame by
offset, the byte value of a descriptor set, membership in the expected set, and the operand bytes of the command templates
(47_command_templates.md R211). -/

namespace Sys2Proof.Machine

/-- Bytes as one unsigned number, first byte most significant (30_encoding.md R86). -/
def beNat (bs : List Byte) : Nat := bs.foldl (fun acc b => acc * 256 + b.toNat) 0

/-- `be16` (30_encoding.md R86). -/
def be16 (bs : List Byte) : BitVec 16 := BitVec.ofNat 16 (beNat bs)

/-- `be32` (30_encoding.md R86). -/
def be32 (bs : List Byte) : BitVec 32 := BitVec.ofNat 32 (beNat bs)

/-- `be64` (30_encoding.md R86). -/
def be64 (bs : List Byte) : BitVec 64 := BitVec.ofNat 64 (beNat bs)

/-- `bytes_be32` (30_encoding.md R86). -/
def bytesBe32 (v : BitVec 32) : List Byte :=
  [v.extractLsb' 24 8, v.extractLsb' 16 8, v.extractLsb' 8 8, v.extractLsb' 0 8]

/-- `bytes_be(v, n)`: an unsigned number as `n` bytes, most significant first (47_command_templates.md R211, R217). -/
def bytesBe (v : Nat) : Nat → List Byte
  | 0 => []
  | n + 1 => BitVec.ofNat 8 (v / 256 ^ n) :: bytesBe v n

/-- `buf[i]`. Every use stands behind check 1, which puts the index inside the buffer (44_decoder.md R157), so the default is
never read. -/
def byteAt (buf : List Byte) (i : Nat) : Byte := buf.getD i 0

/-- The slice `buf[a .. a + n)` (00_scope.md R15). -/
def slice (buf : List Byte) (a n : Nat) : List Byte := (buf.drop a).take n

/-- Bit `fd` of the expected set (10_state.md R31, 44_decoder.md R163). -/
def expects (fds : BitVec 256) (fd : Byte) : Bool := fds.getLsbD fd.toNat

/-- The byte of a descriptor set (30_encoding.md R89). -/
def setByte : DescriptorSet → Byte
  | .sys => 0x01
  | .threeDm => 0x0C
  | .gnss => 0x0D
  | .filt => 0x13
  | .sens => 0x80

/-- Operand bytes of `CMD.GNSS_OFFSET` (47_command_templates.md R211, R216). -/
def gnssOffsetBytes (x y z : BitVec 32) : List Byte := bytesBe32 x ++ bytesBe32 y ++ bytesBe32 z

/-- Operand bytes of `CMD.MSG_FORMAT`, with the decimation in `n` bytes (47_command_templates.md R211, R217). -/
def msgFormatBytes (n : Nat) (tds tfd : Byte) (dec : Nat) : List Byte := [tds, tfd] ++ bytesBe dec n

end Sys2Proof.Machine
end

