-- ==== Sys2Proof/Machine/Checksum.lean ====
section
/-! DEFINITION. The two-byte checksum accumulator CKS (41_checksum.md): the pure function `cks` every unit uses, and the four
operations of the checksum port. -/

namespace Sys2Proof.Machine

/-- One byte: `A <- A + b`, then `B <- B + A` with the new `A`, both modulo 256 (41_checksum.md R110, R112, R116). -/
def cksStep (ab : Byte × Byte) (b : Byte) : Byte × Byte :=
  let a := ab.1 + b
  (a, ab.2 + a)

/-- The accumulators after a span, from any start (41_checksum.md R119). -/
def cksFrom (ab : Byte × Byte) (bs : List Byte) : Byte × Byte := bs.foldl cksStep ab

/-- `cks(s)`: the pair after a span from `(0, 0)` (41_checksum.md R114). -/
def cks (bs : List Byte) : Byte × Byte := cksFrom (0, 0) bs

/-- The pair computed over the covered bytes of a frame of length `fl` (41_checksum.md R115). -/
def coveredSum (f : List Byte) (fl : Nat) : Byte × Byte := cks (f.take (fl - 2))

/-- The two trailer bytes of a frame of length `fl`, in wire order (41_checksum.md R115, 20_memory.md R55). -/
def trailer (f : List Byte) (fl : Nat) : Byte × Byte := (byteAt f (fl - 2), byteAt f (fl - 1))

/-- `cks_check(f, FL)`: exact equality of both bytes (41_checksum.md R115). -/
def cksCheck (f : List Byte) (fl : Nat) : Bool := decide (coveredSum f fl = trailer f fl)

/-- `CKS.CLR` (41_checksum.md R111). -/
def execCksClr (s : State) : Host.Outcome State Fault Refusal := .next (setCks (0, 0) s)

/-- `CKS.UPD b` (41_checksum.md R112). -/
def execCksUpd (b : Byte) (s : State) : Host.Outcome State Fault Refusal :=
  .next (setCks (cksStep (s.cksA, s.cksB) b) s)

/-- `CKS.RD` (41_checksum.md R113). -/
def execCksRd (s : State) : Host.Outcome State Fault Refusal :=
  .next (respond (.checksum s.cksA s.cksB) s)

/-- `CKS.SPAN s` (41_checksum.md R114): clear, update with each byte, read. -/
def execCksSpan (bs : List Byte) (s : State) : Host.Outcome State Fault Refusal :=
  .next (respond (.checksum (cks bs).1 (cks bs).2) (setCks (cks bs) s))

end Sys2Proof.Machine
end

