-- ==== Sys2Proof/Machine/Flags.lean ====
section
/-! DEFINITION. The bits of the control and status registers (10_state.md R32, R33): the engine has no other flag. -/

namespace Sys2Proof.Machine

/-- `SYN_STATE` as a bit: 0 Scanning, 1 Synced (10_state.md R25). -/
def synBit : SynState → BitVec 8
  | .scanning => 0
  | .synced => 1

/-- `STATUS`: `SYNCED` at bit 0, bits 7:1 zero (10_state.md R32). -/
def statusValue (s : State) : BitVec 8 := synBit s.synState

/-- `CFG.UNITS_G`, bit 0 (10_state.md R32). -/
def unitsG (s : State) : Bool := s.cfg.getLsbD 0

/-- `CFG` as it reads: bits 7:1 zero (10_state.md R32). -/
def cfgValue (s : State) : BitVec 8 := s.cfg &&& 1

/-- What a write of `v` leaves in `CFG`: bit 0 of `v`, bits 7:1 ignored (48_system_ops.md R233). -/
def cfgWritten (v : BitVec 256) : BitVec 8 := v.setWidth 8 &&& 1

/-- A register's value as the host reads it, widened with zeros (48_system_ops.md R234). -/
def readReg (reg : Reg) (s : State) : BitVec 256 :=
  match reg with
  | .expDs => s.expDs.setWidth 256
  | .expFd => s.expFd
  | .cfg => (cfgValue s).setWidth 256
  | .status => (statusValue s).setWidth 256

/-- A host write to a register; `STATUS` is read-only and ignores it (48_system_ops.md R233). -/
def writeReg (reg : Reg) (v : BitVec 256) (s : State) : State :=
  match reg with
  | .expDs => setExpDs (v.setWidth 8) s
  | .expFd => setExpFd v s
  | .cfg => setCfg (cfgWritten v) s
  | .status => s

end Sys2Proof.Machine
end

