-- ==== Sys2Proof/Machine/Extractor.lean ====
section
/-! DEFINITION. The field extractor EXT (45_extractor.md). -/

namespace Sys2Proof.Machine

/-- `ext_accel` (45_extractor.md R183, R184): exactly 12 bytes, three patterns as received, the units flag beside them. -/
def extractAccel (d : List Byte) (g : Bool) : Option TypedField :=
  if d.length = 12 then some (.accel (be32 (slice d 0 4)) (be32 (slice d 4 4)) (be32 (slice d 8 4)) g) else none

/-- `ext_gpstime` (45_extractor.md R185): at least 10 bytes, those from index 10 on ignored. -/
def extractGpsTime (d : List Byte) : Option TypedField :=
  if d.length < 10 then none else some (.gpsTime (be64 (slice d 0 8)) (be16 (slice d 8 2)))

/-- The RAW form (45_extractor.md R187). -/
def extractRaw (fd : Byte) (d : List Byte) : Option TypedField := some (.raw fd d)

/-- `extract` (45_extractor.md R182): no shape, or a size its shape does not allow, gives no value (R188). -/
def extract (ds fd : Byte) (d : List Byte) (g : Bool) : Option TypedField :=
  match shapeOf ds fd with
  | some .accel => extractAccel d g
  | some .gpsTime => extractGpsTime d
  | some .raw => extractRaw fd d
  | none => none

/-- The result of an extraction as a value: `Err` becomes `UnsupportedField` with the descriptor (45_extractor.md R188). -/
def extractResult (fd : Byte) : Option TypedField → ExtractResult
  | some v => .ok v
  | none => .err (.unsupportedField fd)

/-- What a consumer outside the engine does with an acceleration that still owes the multiplication by `P_GRAVITY`
(45_extractor.md R184); no operation of the engine calls it. -/
def scaledByConsumer : TypedField → TypedField
  | .accel x y z true => .accel (Config.scale x) (Config.scale y) (Config.scale z) false
  | v => v

/-- `EXT.ACCEL` on the data of one field (45_extractor.md R183; log entry 7). -/
def execExtAccel (d : List Byte) (s : State) : Host.Outcome State Fault Refusal :=
  .next (respond (.extracted (extractResult 0x04 (extractAccel d (unitsG s)))) s)

/-- `EXT.GPSTIME` on the data of one field (45_extractor.md R185; log entry 7). -/
def execExtGpstime (d : List Byte) (s : State) : Host.Outcome State Fault Refusal :=
  .next (respond (.extracted (extractResult 0xD3 (extractGpsTime d))) s)

/-- `EXT.RAW` on one field of a command set, whichever set it is (45_extractor.md R187; log entry 7). -/
def execExtRaw (_ds fd : Byte) (d : List Byte) (s : State) : Host.Outcome State Fault Refusal :=
  .next (respond (.extracted (extractResult fd (extractRaw fd d))) s)

end Sys2Proof.Machine
end

