-- ==== Sys2Proof/Machine/Validator.lean ====
section
/-! DEFINITION. The packet frame validator and deserializer DEC (44_decoder.md): the pure function `decode` of R156, here
`decodeFrame`, and the direct-mode operation. -/

namespace Sys2Proof.Machine

/-- `FL`, the length the frame's own length byte announces (44_decoder.md R156, R167). -/
def frameLength (buf : List Byte) : Nat := (byteAt buf 3).toNat + 6

/-- Check 1, length (44_decoder.md R157). -/
def lengthOk (buf : List Byte) : Bool :=
  decide (Config.minFrame ≤ buf.length) && decide (frameLength buf ≤ buf.length)

/-- Check 3, descriptor set (44_decoder.md R160). -/
def setOk (ds expDs : Byte) : Bool := decide (ds = expDs) && decide (ds ∈ Config.dsEnum)

/-- Check 4, the field walk over the payload from frame offset `off` (44_decoder.md R161 to R163): within a field, structure is
tested before the descriptor, and the first failing field decides. The first argument bounds the number of fields; the number
of payload bytes is always enough, since a field takes at least two. -/
def walkFields (fds : BitVec 256) : Nat → Nat → List Byte → Except ErrorEvent (List (Byte × List Byte))
  | 0, _, _ => .ok []
  | _ + 1, _, [] => .ok []
  | _ + 1, off, [_] => .error (.malformedField off)
  | n + 1, off, flen :: fd :: rest =>
    if flen.toNat < 2 ∨ rest.length + 2 < flen.toNat then .error (.malformedField off)
    else if expects fds fd = false then .error (.unexpectedFieldDescriptor fd)
    else
      match walkFields fds n (off + flen.toNat) (rest.drop (flen.toNat - 2)) with
      | .error e => .error e
      | .ok raw => .ok ((fd, rest.take (flen.toNat - 2)) :: raw)

/-- Check 5, sync bytes (44_decoder.md R164). -/
def syncOk (buf : List Byte) : Bool :=
  decide (byteAt buf 0 = Config.sync0) && decide (byteAt buf 1 = Config.sync1)

/-- Interpretation of the raw fields in wire order; the first that has no value gives its descriptor (44_decoder.md R166). -/
def interpret (ds : Byte) (g : Bool) : List (Byte × List Byte) → Except Byte (List TypedField)
  | [] => .ok []
  | (fd, data) :: rest =>
    match extract ds fd data g with
    | none => .error fd
    | some v =>
      match interpret ds g rest with
      | .error bad => .error bad
      | .ok vs => .ok (v :: vs)

/-- Checks 4 and 5 and the interpretation, on a frame of set `ds` that has passed checks 1 to 3 (44_decoder.md R156). -/
def decodePayload (buf : List Byte) (ds : Byte) (expFd : BitVec 256) (g : Bool) : DecodeResult :=
  let n := (byteAt buf 3).toNat
  match walkFields expFd n 4 (slice buf 4 n) with
  | .error e => .err e
  | .ok raw =>
    if syncOk buf = false then .err (.badSync (byteAt buf 0, byteAt buf 1))
    else
      match interpret ds g raw with
      | .error fd => .err (.unsupportedField fd)
      | .ok fields => .ok { descriptorSet := ds, fields := fields }

/-- `decode(buf, L, exp_ds, exp_fd, units_g)` with `L = |buf|` (44_decoder.md R156): the checks short-circuit in the order of
60_exceptions.md R250. -/
def decodeFrame (buf : List Byte) (expDs : Byte) (expFd : BitVec 256) (g : Bool) : DecodeResult :=
  if lengthOk buf = false then .err .truncatedFrame
  else if cksCheck buf (frameLength buf) = false then
    .err (.checksumMismatch (coveredSum buf (frameLength buf)) (trailer buf (frameLength buf)))
  else if setOk (byteAt buf 2) expDs = false then .err (.unexpectedDescriptorSet (byteAt buf 2))
  else decodePayload buf (byteAt buf 2) expFd g

/-- The tag of a record, a function of its field list (44_decoder.md R172). -/
def recordTag (r : Record) : RecordTag :=
  match r.fields with
  | [] => .empty
  | [.accel _ _ _ _] => .accel
  | [.gpsTime _ _, .accel _ _ _ _] => .towAccel
  | [.accel _ _ _ _, .gpsTime _ _] => .towAccel
  | _ => .generic

/-- `DEC.DECODE buf, ds, fds` in direct mode: the result goes back to the requester and no state changes; the units flag is
`CFG.UNITS_G` (44_decoder.md R156). -/
def execDecDecode (buf : List Byte) (ds : Byte) (fds : BitVec 256) (s : State) : Host.Outcome State Fault Refusal :=
  .next (respond (.decoded (decodeFrame buf ds fds (unitsG s))) s)

end Sys2Proof.Machine
end

