-- ==== Sys2Proof/Machine/Collector.lean ====
section
/-! DEFINITION. The receive collector RXC (43_collector.md). -/

namespace Sys2Proof.Machine

/-- A complete frame: decoded with the registers as they stand now, the receive path back in Scanning, then exactly one output
(43_collector.md R142, R143, R145, R146). -/
def completeFrame (s : State) : Host.Outcome State Fault Refusal :=
  match rxFrame s with
  | none => .fault .rxBufUnreadable
  | some buf => .next (postResult (decodeFrame buf s.expDs s.expFd (unitsG s)) (toScanning s))

/-- After a byte is stored: the frame is complete when `RX_IDX >= 4` and `RX_IDX = RX_BUF[3] + 6` (43_collector.md R142, R143). -/
def afterStore (s : State) : Host.Outcome State Fault Refusal :=
  if s.rxIdx.toNat < 4 then .next s
  else
    match rxRead s 3 with
    | none => .fault .rxBufUnreadable
    | some n => if s.rxIdx.toNat = n.toNat + 6 then completeFrame s else .next s

/-- `RXC.BYTE b` (43_collector.md R142; log entries 4 and 13). -/
def execRxcByte (b : Byte) (s : State) : Host.Outcome State Fault Refusal :=
  if s.rxIdx.toNat < Config.maxFrame then afterStore (storeRx b s) else .fault .rxBufOverrun

/-- `RXC.DEADLINE` (43_collector.md R147). -/
def execRxcDeadline (s : State) : Host.Outcome State Fault Refusal :=
  .next (raiseError .truncatedFrame (toScanning s))

end Sys2Proof.Machine
end

