-- ==== Sys2Proof/Machine/Synchronizer.lean ====
section
/-! DEFINITION. The frame synchronizer SYN (42_synchronizer.md). -/

namespace Sys2Proof.Machine

/-- The marker matcher on one byte (42_synchronizer.md R127 to R130): a byte that breaks a pair is discarded with it and is not
looked at again. -/
def matchMarker (b : Byte) (s : State) : State :=
  if s.synHalf = false then
    if b = Config.sync0 then setHalf true s else s
  else
    if b = Config.sync1 then enterSynced s else setHalf false s

/-- `SYN.BYTE b` (42_synchronizer.md R127). -/
def execSynByte (b : Byte) (s : State) : Host.Outcome State Fault Refusal := .next (matchMarker b s)

/-- `SYN.DEADLINE` (42_synchronizer.md R132). -/
def execSynDeadline (s : State) : Host.Outcome State Fault Refusal :=
  .next (raiseError .syncTimeout (setHalf false s))

end Sys2Proof.Machine
end

