-- ==== Sys2Proof/Machine/System.lean ====
section
/-! DEFINITION. The system operations and the reserved operation-select codes (48_system_ops.md). -/

namespace Sys2Proof.Machine

/-- `SYN.REARM` (48_system_ops.md R231). -/
def execSynRearm (s : State) : Host.Outcome State Fault Refusal := .next (toScanning s)

/-- `CFG.WR reg, v` (48_system_ops.md R233). -/
def execCfgWr (reg : Reg) (v : BitVec 256) (s : State) : Host.Outcome State Fault Refusal := .next (writeReg reg v s)

/-- `CFG.RD reg` (48_system_ops.md R234). -/
def execCfgRd (reg : Reg) (s : State) : Host.Outcome State Fault Refusal :=
  .next (respond (.register reg (readReg reg s)) s)

/-- A request that selects no operation: no state changes, nothing is emitted, and the requester is told that it is refused
(48_system_ops.md R235; log entry 11). -/
def refuseRequest (opsel : BitVec 4) (s : State) : State := respond (.refused opsel) s

/-- `OPSEL = 0x9` (48_system_ops.md R235). -/
def execReserved9 (s : State) : Host.Outcome State Fault Refusal := .next (refuseRequest 0x9 s)

/-- `OPSEL = 0xA` (48_system_ops.md R235). -/
def execReservedA (s : State) : Host.Outcome State Fault Refusal := .next (refuseRequest 0xA s)

/-- `OPSEL = 0xB` (48_system_ops.md R235). -/
def execReservedB (s : State) : Host.Outcome State Fault Refusal := .next (refuseRequest 0xB s)

/-- `OPSEL = 0xC` (48_system_ops.md R235). -/
def execReservedC (s : State) : Host.Outcome State Fault Refusal := .next (refuseRequest 0xC s)

/-- `OPSEL = 0xD` (48_system_ops.md R235). -/
def execReservedD (s : State) : Host.Outcome State Fault Refusal := .next (refuseRequest 0xD s)

/-- `OPSEL = 0xE` (48_system_ops.md R235). -/
def execReservedE (s : State) : Host.Outcome State Fault Refusal := .next (refuseRequest 0xE s)

/-- `OPSEL = 0xF` (48_system_ops.md R235). -/
def execReservedF (s : State) : Host.Outcome State Fault Refusal := .next (refuseRequest 0xF s)

end Sys2Proof.Machine
end

