-- ==== Sys2Proof/Machine/Builder.lean ====
section
/-! DEFINITION. The command frame builder and serializer BLD (46_builder.md). -/

namespace Sys2Proof.Machine

/-- Index of the first field with more than 253 data bytes, counting from `i` (46_builder.md R196, R199). -/
def firstTooLong (i : Nat) : List (Byte × List Byte) → Option Nat
  | [] => none
  | (_, p) :: rest => if Config.maxFieldData < p.length then some i else firstTooLong (i + 1) rest

/-- `N`, the sum of `2 + |p_i|`, a natural number (46_builder.md R196, 30_encoding.md R88). -/
def payloadLength : List (Byte × List Byte) → Nat
  | [] => 0
  | (_, p) :: rest => (2 + p.length) + payloadLength rest

/-- The fields in order, each its length byte, its descriptor and its data (46_builder.md R197). -/
def serializeFields : List (Byte × List Byte) → List Byte
  | [] => []
  | (fd, p) :: rest => BitVec.ofNat 8 (2 + p.length) :: fd :: p ++ serializeFields rest

/-- The bytes the checksum covers: marker, set, length, fields (46_builder.md R196, R197). -/
def coveredBytes (ds : Byte) (fields : List (Byte × List Byte)) : List Byte :=
  [Config.sync0, Config.sync1, ds, BitVec.ofNat 8 (payloadLength fields)] ++ serializeFields fields

/-- `f ++ [A, B]` with the checksum of `f` (46_builder.md R196). -/
def withChecksum (f : List Byte) : List Byte := f ++ [(cks f).1, (cks f).2]

/-- `build(ds, fields)` (46_builder.md R196): the refusals are tested in the order of R199. -/
def build (ds : Byte) (fields : List (Byte × List Byte)) : BuildResult :=
  if ds ∉ Config.dsEnum then .refused (.badDescriptorSet ds)
  else
    match firstTooLong 0 fields with
    | some i => .refused (.fieldTooLong i)
    | none =>
      if Config.maxPayload < payloadLength fields then .refused (.payloadTooLong (payloadLength fields))
      else .ok (withChecksum (coveredBytes ds fields))

/-- What `BLD.BUILD` does with the result: the whole frame goes out, or the refusal is raised and nothing is emitted
(46_builder.md R196, R199, R201). -/
def runBuild (ds : Byte) (fields : List (Byte × List Byte)) (s : State) : State :=
  match build ds fields with
  | .ok frame => emitTx frame (dropScratch s)
  | .refused e => raiseError e s

/-- `BLD.BUILD ds, fields` (46_builder.md R196). -/
def execBldBuild (ds : Byte) (fields : List (Byte × List Byte)) (s : State) : Host.Outcome State Fault Refusal :=
  .next (runBuild ds fields s)

end Sys2Proof.Machine
end

