-- ==== Sys2Proof/Machine/Templates.lean ====
section
/-! DEFINITION. The eight command templates (47_command_templates.md): each is one `BLD.BUILD` with one field. -/

namespace Sys2Proof.Machine

/-- The one field a template puts in its frame (47_command_templates.md R211). -/
def templateFields (t : Config.Template) (operandBytes : List Byte) : List (Byte × List Byte) :=
  [(t.fd, t.pre ++ operandBytes)]

/-- `CMD.T operands = BLD.BUILD ds = T.ds, fields = [(T.fd, T.pre ++ operand_bytes)]` (47_command_templates.md R211). -/
def runTemplate (t : Config.Template) (operandBytes : List Byte) (s : State) : State :=
  runBuild (setByte t.ds) (templateFields t operandBytes) s

/-- `CMD.IDLE` (47_command_templates.md R212). -/
def execCmdIdle (s : State) : Host.Outcome State Fault Refusal :=
  .next (runTemplate (Config.template .idle) [] s)

/-- `CMD.RESUME` (47_command_templates.md R213). -/
def execCmdResume (s : State) : Host.Outcome State Fault Refusal :=
  .next (runTemplate (Config.template .resume) [] s)

/-- `CMD.PPS_SOURCE p` (47_command_templates.md R214). -/
def execCmdPpsSource (p : List Byte) (s : State) : Host.Outcome State Fault Refusal :=
  .next (runTemplate (Config.template .ppsSource) p s)

/-- `CMD.PPS_PULSE p` (47_command_templates.md R215). -/
def execCmdPpsPulse (p : List Byte) (s : State) : Host.Outcome State Fault Refusal :=
  .next (runTemplate (Config.template .ppsPulse) p s)

/-- `CMD.GNSS_OFFSET x, y, z` (47_command_templates.md R216). -/
def execCmdGnssOffset (x y z : BitVec 32) (s : State) : Host.Outcome State Fault Refusal :=
  .next (runTemplate (Config.template .gnssOffset) (gnssOffsetBytes x y z) s)

/-- `CMD.MSG_FORMAT tds, tfd, dec` (47_command_templates.md R217). -/
def execCmdMsgFormat (tds tfd : Byte) (dec : Nat) (s : State) : Host.Outcome State Fault Refusal :=
  .next (runTemplate (Config.template .msgFormat) (msgFormatBytes Config.decimBytes tds tfd dec) s)

/-- `CMD.STREAM_EN p` (47_command_templates.md R218). -/
def execCmdStreamEn (p : List Byte) (s : State) : Host.Outcome State Fault Refusal :=
  .next (runTemplate (Config.template .streamEn) p s)

/-- `CMD.POLL p` (47_command_templates.md R219). -/
def execCmdPoll (p : List Byte) (s : State) : Host.Outcome State Fault Refusal :=
  .next (runTemplate (Config.template .poll) p s)

end Sys2Proof.Machine
end

