-- ==== Sys2Proof/Machine/Dispatch.lean ====
section
/-! DEFINITION. One arm per operation of the table. -/

namespace Sys2Proof.Machine

def exec (i : Instr) (s : State) : Host.Outcome State Fault Refusal :=
  match i with
  | .cksClr => Sys2Proof.Machine.execCksClr s
  | .cksUpd b => Sys2Proof.Machine.execCksUpd b s
  | .cksRd => Sys2Proof.Machine.execCksRd s
  | .cksSpan bs => Sys2Proof.Machine.execCksSpan bs s
  | .synRearm => Sys2Proof.Machine.execSynRearm s
  | .decDecode buf ds fds => Sys2Proof.Machine.execDecDecode buf ds fds s
  | .bldBuild ds fields => Sys2Proof.Machine.execBldBuild ds fields s
  | .cfgWr reg v => Sys2Proof.Machine.execCfgWr reg v s
  | .cfgRd reg => Sys2Proof.Machine.execCfgRd reg s
  | .reserved9 => Sys2Proof.Machine.execReserved9 s
  | .reservedA => Sys2Proof.Machine.execReservedA s
  | .reservedB => Sys2Proof.Machine.execReservedB s
  | .reservedC => Sys2Proof.Machine.execReservedC s
  | .reservedD => Sys2Proof.Machine.execReservedD s
  | .reservedE => Sys2Proof.Machine.execReservedE s
  | .reservedF => Sys2Proof.Machine.execReservedF s
  | .synByte b => Sys2Proof.Machine.execSynByte b s
  | .rxcByte b => Sys2Proof.Machine.execRxcByte b s
  | .synDeadline => Sys2Proof.Machine.execSynDeadline s
  | .rxcDeadline => Sys2Proof.Machine.execRxcDeadline s
  | .extAccel d => Sys2Proof.Machine.execExtAccel d s
  | .extGpstime d => Sys2Proof.Machine.execExtGpstime d s
  | .extRaw ds fd d => Sys2Proof.Machine.execExtRaw ds fd d s
  | .cmdIdle => Sys2Proof.Machine.execCmdIdle s
  | .cmdResume => Sys2Proof.Machine.execCmdResume s
  | .cmdPpsSource p => Sys2Proof.Machine.execCmdPpsSource p s
  | .cmdPpsPulse p => Sys2Proof.Machine.execCmdPpsPulse p s
  | .cmdGnssOffset x y z => Sys2Proof.Machine.execCmdGnssOffset x y z s
  | .cmdMsgFormat tds tfd dec => Sys2Proof.Machine.execCmdMsgFormat tds tfd dec s
  | .cmdStreamEn p => Sys2Proof.Machine.execCmdStreamEn p s
  | .cmdPoll p => Sys2Proof.Machine.execCmdPoll p s

end Sys2Proof.Machine
end

