-- ==== Sys2Proof/Machine/Step.lean ====
section
/-! DEFINITION. One step: the next stimulus is consumed and the operation it selects is run (10_state.md R20, 30_encoding.md
R103). -/

namespace Sys2Proof.Machine

/-- One stimulus, to completion (10_state.md R20, 20_memory.md R61). With none left the run has ended (R39). -/
def step (s : State) : Host.Outcome State Fault Refusal :=
  match fetch s with
  | none => .fault .noStimulus
  | some (x, t) =>
    match decode t.synState x with
    | .ok i => exec i t
    | .error r => offTable r t

/-- `s` with the stimulus of a table word next to be delivered, and the receive path in the state a class R key names, since that
state is part of what selects the operation (30_encoding.md R103, R104; log entry 2). -/
def State.withFetchWord (s : State) (nbits w : Nat) : State :=
  match tableStimulus nbits w with
  | none => s
  | some x => pushStimulus x (receiveIn ((tableState nbits w).getD s.synState) s)

end Sys2Proof.Machine
end

