-- ==== Sys2Proof/Safety.lean ====
section
/-! DEFINITION. The invariants of 10_state.md R37 (with R32 and R40), what a later state of a run keeps of an earlier one, and
the terms the claims are written in. -/

namespace Sys2Proof.Machine

/-- The receive path's invariant in Scanning (10_state.md R37). -/
def ScanningInv (s : State) : Prop := s.rxIdx = 0

/-- The receive path's invariant in Synced (10_state.md R37): no half match, the marker in place, every cell below `RX_IDX`
written (R40), and the frame not yet complete. -/
def SyncedInv (s : State) : Prop :=
  s.synHalf = false ∧ 2 ≤ s.rxIdx.toNat ∧ rxRead s 0 = some Config.sync0 ∧ rxRead s 1 = some Config.sync1 ∧
    (∀ a < s.rxIdx.toNat, (rxRead s a).isSome) ∧
    (4 ≤ s.rxIdx.toNat → ∃ n, rxRead s 3 = some n ∧ s.rxIdx.toNat < n.toNat + 6)

/-- The invariant of the whole machine: the receive path's (10_state.md R37), the buffers' canonical form and bounds (R29), and
the reserved bits of `CFG` (R32). -/
structure Inv (s : State) : Prop where
  scanning : s.synState = .scanning → ScanningInv s
  synced   : s.synState = .synced → SyncedInv s
  rxWf     : Memory.wf s.rxBuf
  rxWithin : Memory.within s.rxBuf
  txWf     : Memory.wf s.txBuf
  txWithin : Memory.within s.txBuf
  reserved : s.cfg &&& 0xFE = 0

/-- No output is ever taken back: each trace of the earlier state starts the later one's (10_state.md R35). -/
def OutputsGrow (s t : State) : Prop :=
  s.txStream <+: t.txStream ∧ s.records <+: t.records ∧ s.errors <+: t.errors ∧ s.responses <+: t.responses

/-- Operations run one after another, stopping at the first that does not answer a next state. -/
def execAll : List Instr → State → Host.Outcome State Fault Refusal
  | [], s => .next s
  | i :: rest, s =>
    match exec i s with
    | .next t => execAll rest t
    | .fault r => .fault r
    | .refused r => .refused r

/-- `n` steps of the machine. -/
def run (n : Nat) (s : State) : Host.Outcome State Fault Refusal := Host.Core.run Sys2Proof.core n s

/-- `s[0] + s[1] + ... + s[n-1]` (41_checksum.md R117). -/
def byteSum : List Byte → Nat
  | [] => 0
  | b :: rest => b.toNat + byteSum rest

/-- `n*s[0] + (n-1)*s[1] + ... + 1*s[n-1]` (41_checksum.md R117). -/
def weightedSum : List Byte → Nat
  | [] => 0
  | b :: rest => (rest.length + 1) * b.toNat + weightedSum rest

/-- The payload length `N` a frame announces (20_memory.md R51). -/
def announced (buf : List Byte) : Nat := (byteAt buf 3).toNat

/-- A buffer that holds the whole frame it announces (44_decoder.md R157). -/
def HoldsFrame (buf : List Byte) : Prop := 6 ≤ buf.length ∧ announced buf + 6 ≤ buf.length

/-- The trailer of the frame in a buffer is the checksum of its covered bytes (44_decoder.md R158). -/
def TrailerMatches (buf : List Byte) : Prop :=
  cks (buf.take (announced buf + 4)) = (byteAt buf (announced buf + 4), byteAt buf (announced buf + 5))

/-- A buffer that passes checks 1 to 3 for the expected set `ds` (44_decoder.md R156). -/
structure PassesHeader (buf : List Byte) (ds : Byte) : Prop where
  holds   : HoldsFrame buf
  trailer : TrailerMatches buf
  set     : byteAt buf 2 = ds
  legal   : ds ∈ Config.dsEnum

/-- The payload bytes of the frame in a buffer (20_memory.md R51). -/
def payload (buf : List Byte) : List Byte := (buf.drop 4).take (announced buf)

/-- A field that fits its length byte and whose descriptor is expected (30_encoding.md R83, 44_decoder.md R163). -/
def FieldPasses (fds : BitVec 256) (f : Byte × List Byte) : Prop := f.2.length ≤ 253 ∧ expects fds f.1 = true

/-- The outcome is a next state that has `frame` appended to the transmit stream and is otherwise the same, but for the scratch
`TX_BUF`, `TX_LEN`, which holds unspecified values (46_builder.md R196, 10_state.md R21, R29; log entry 5). -/
def Emits (frame : List Byte) (s : State) (o : Host.Outcome State Fault Refusal) : Prop :=
  ∃ tb tl n, o = .next { s with txStream := s.txStream ++ frame, txBuf := tb, txLen := tl, scratchDraws := n }

/-- The frame of one field (47_command_templates.md R211, the table's encoding column): marker, set, length, field, checksum. -/
def oneFieldFrame (ds fd : Byte) (data : List Byte) : List Byte :=
  let n : Byte := BitVec.ofNat 8 (2 + data.length)
  let f := [0x75, 0x65, ds, n, n, fd] ++ data
  f ++ [(cks f).1, (cks f).2]

/-- The operations that touch the visible accumulators (10_state.md R22). -/
def usesChecksumPort : Instr → Bool
  | .cksClr | .cksUpd _ | .cksRd | .cksSpan _ => true
  | _ => false

/-- The operations that send a frame: `BLD.BUILD` and the templates, which are `BLD.BUILD` (30_encoding.md R102). -/
def sendsFrame : Instr → Bool
  | .bldBuild _ _ | .cmdIdle | .cmdResume | .cmdPpsSource _ | .cmdPpsPulse _ | .cmdGnssOffset _ _ _ | .cmdMsgFormat _ _ _
  | .cmdStreamEn _ | .cmdPoll _ => true
  | _ => false

/-- The addresses of `RX_BUF` an operation stores to in a state: the two marker bytes on a match, or the cell at `RX_IDX`
(42_synchronizer.md R127, 43_collector.md R142). -/
def storesRx (i : Instr) (s : State) : List Nat :=
  match i with
  | .synByte b => if s.synHalf = true ∧ b = 0x65 then [0, 1] else []
  | .rxcByte _ => [s.rxIdx.toNat]
  | _ => []

end Sys2Proof.Machine
end

