-- ==== Sys2Proof/Certificates/Slice0/Obligations.lean ====
section
/-! DEFINITION. The statements about the model, for the provers. Each docstring names the rule it formalises. -/

open Sys2Proof Sys2Proof.Machine

/-! ## Reset -/

/-- R38, R282: the reset state, and that its configuration admits no record of any frame. -/
def Obligations.ResetAdmitsNoRecord : Prop :=
  State.reset.cksA = 0 ∧ State.reset.cksB = 0 ∧ State.reset.synState = .scanning ∧ State.reset.synHalf = false ∧
  State.reset.rxIdx = 0 ∧ State.reset.expDs = 0 ∧ State.reset.expFd = 0 ∧ unitsG State.reset = false ∧
  State.reset.txStream = [] ∧ State.reset.records = [] ∧ State.reset.errors = [] ∧
  ∀ (buf : List Byte) (g : Bool) (r : Record), decodeFrame buf State.reset.expDs State.reset.expFd g ≠ .ok r

/-- The `reset` event. What the buffers and `TX_LEN` hold afterwards is not stated (unspecified); that the waiting stimuli, the
returned values and the three outputs stay is the model's choice (log entry 12). -/
def Obligations.ResetEventClearsRegisters : Prop :=
  ∀ (s : State) (rest : List Stimulus), s.stimuli = .reset :: rest →
    ∃ rb tb tl, step s = .next { s with
      cksA := 0, cksB := 0, synState := .scanning, synHalf := false, rxIdx := 0, expDs := 0, expFd := 0, cfg := 0,
      rxBuf := rb, txBuf := tb, txLen := tl, stimuli := rest }

/-- R37, R38: the invariant holds at reset. -/
def Obligations.ResetMeetsInv : Prop := Inv State.reset

/-! ## Selecting an operation -/

/-- R20, R103: a step runs the operation its stimulus selects, on the state with that stimulus consumed. -/
def Obligations.StepRunsDecoded : Prop :=
  ∀ (s : State) (x : Stimulus) (rest : List Stimulus) (i : Instr),
    s.stimuli = x :: rest → decode s.synState x = .ok i → i.wf = true → step s = exec i { s with stimuli := rest }

/-- What each stimulus selects: a receive stimulus by `SYN_STATE` alone, a host request by `OPSEL`, a template by its name, a
field by set and descriptor, with exactly the data bytes its length byte announces; and what selects nothing: the `reset` event and
the field keys of no operation (the transport of operands, the width a value is read at and class W as a stimulus are the model's
choices: log entries 1, 7 and 9). -/
def Obligations.StimulusSelectsOperation : Prop :=
  ∀ (st : SynState) (o : Operands) (b ds fl fd : Byte) (d extra : List Byte),
    (decode .scanning (.rxByte b) = .ok (.synByte b) ∧
      decode .synced (.rxByte b) = .ok (.rxcByte b) ∧
      decode .scanning .rxDeadline = .ok .synDeadline ∧
      decode .synced .rxDeadline = .ok .rxcDeadline) ∧
    (decode st (.request 0x0 o) = .ok .cksClr ∧
      decode st (.request 0x1 o) = .ok (.cksUpd o.b) ∧
      decode st (.request 0x2 o) = .ok .cksRd ∧
      decode st (.request 0x3 o) = .ok (.cksSpan o.bytes) ∧
      decode st (.request 0x4 o) = .ok .synRearm ∧
      decode st (.request 0x5 o) = .ok (.decDecode o.bytes o.ds o.fds) ∧
      decode st (.request 0x6 o) = .ok (.bldBuild o.ds o.fields) ∧
      (∃ v, decode st (.request 0x7 o) = .ok (.cfgWr o.reg v) ∧ v.toNat = o.value.toNat % 2 ^ o.reg.width) ∧
      decode st (.request 0x8 o) = .ok (.cfgRd o.reg) ∧
      decode st (.request 0x9 o) = .ok .reserved9 ∧
      decode st (.request 0xA o) = .ok .reservedA ∧
      decode st (.request 0xB o) = .ok .reservedB ∧
      decode st (.request 0xC o) = .ok .reservedC ∧
      decode st (.request 0xD o) = .ok .reservedD ∧
      decode st (.request 0xE o) = .ok .reservedE ∧
      decode st (.request 0xF o) = .ok .reservedF) ∧
    (decode st (.template .idle o) = .ok .cmdIdle ∧
      decode st (.template .resume o) = .ok .cmdResume ∧
      decode st (.template .ppsSource o) = .ok (.cmdPpsSource o.bytes) ∧
      decode st (.template .ppsPulse o) = .ok (.cmdPpsPulse o.bytes) ∧
      decode st (.template .gnssOffset o) = .ok (.cmdGnssOffset o.x o.y o.z) ∧
      decode st (.template .msgFormat o) = .ok (.cmdMsgFormat o.ds o.tag (o.number % 256 ^ Config.decimBytes)) ∧
      decode st (.template .streamEn o) = .ok (.cmdStreamEn o.bytes) ∧
      decode st (.template .poll o) = .ok (.cmdPoll o.bytes)) ∧
    (d.length = fl.toNat - 2 →
      decode st (.field (fieldKey 0x80 fl 0x04) (d ++ extra)) = .ok (.extAccel d) ∧
      decode st (.field (fieldKey 0x80 fl 0xD3) (d ++ extra)) = .ok (.extGpstime d) ∧
      (fd ≠ 0x04 → fd ≠ 0xD3 → decode st (.field (fieldKey 0x80 fl fd) (d ++ extra)) = .error (.noShape fd)) ∧
      (ds ∈ Config.commandSets → 2 ≤ fl.toNat →
        decode st (.field (fieldKey ds fl fd) (d ++ extra)) = .ok (.extRaw ds fd d)) ∧
      (ds ∈ Config.commandSets → fl.toNat < 2 →
        decode st (.field (fieldKey ds fl fd) (d ++ extra)) = .error .reservedLength) ∧
      (ds ∉ Config.dsEnum → decode st (.field (fieldKey ds fl fd) (d ++ extra)) = .error (.unknownSet ds))) ∧
    (d.length < fl.toNat - 2 → decode st (.field (fieldKey ds fl fd) d) = .error .fieldCutShort) ∧
    decode st .reset = .error .resetEvent

/-- A few words of the table written out from its match and mask columns (R104). -/
def Obligations.TableWordsDecode : Prop :=
  decodeTableWord 8 0x0 = some .cksClr ∧ decodeTableWord 8 0x4 = some .synRearm ∧
  decodeTableWord 8 0xA = some .reservedA ∧ decodeTableWord 16 0x075 = some (.synByte 0x75) ∧
  decodeTableWord 16 0x165 = some (.rxcByte 0x65) ∧ decodeTableWord 16 0x200 = some .synDeadline ∧
  decodeTableWord 16 0x300 = some .rxcDeadline ∧
  decodeTableWord 24 0x800E04 = some (.extAccel (List.replicate 12 0)) ∧
  decodeTableWord 24 0x800CD3 = some (.extGpstime (List.replicate 10 0)) ∧
  decodeTableWord 24 0x0104F1 = some (.extRaw 0x01 0xF1 [0, 0])

/-- The encoder and the decoder agree on every well-formed operation with every operand value; a receive operation is read back
in the `SYN_STATE` its key names (R100, R103, R104). -/
def Obligations.DecodeOfEncode : Prop :=
  ∀ (i : Instr) (st : SynState), i.wf = true → (keyState i).getD st = st → decode st (encode i) = .ok i

/-- What the decoder answers is well-formed. -/
def Obligations.DecodedIsWellFormed : Prop :=
  ∀ (st : SynState) (x : Stimulus) (i : Instr), decode st x = .ok i → i.wf = true

/-! ## The checksum port -/

/-- R111. -/
def Obligations.ChecksumClear : Prop :=
  ∀ (s : State) (st : SynState) (o : Operands),
    exec .cksClr s = .next { s with cksA := 0, cksB := 0 } ∧ decode st (.request 0x0 o) = .ok .cksClr

/-- R112. -/
def Obligations.ChecksumUpdate : Prop :=
  ∀ (b : Byte) (s : State) (st : SynState) (o : Operands),
    (∃ a' b' : Byte, a'.toNat = (s.cksA.toNat + b.toNat) % 256 ∧ b'.toNat = (s.cksB.toNat + a'.toNat) % 256 ∧
      exec (.cksUpd b) s = .next { s with cksA := a', cksB := b' }) ∧
    decode st (.request 0x1 o) = .ok (.cksUpd o.b)

/-- `CKS.RD` hands back `(A, B)` in that order and writes nothing; that a returned value is appended to a trace is the model's
choice (log entry 3). -/
def Obligations.ChecksumRead : Prop :=
  ∀ s : State, exec .cksRd s = .next { s with responses := s.responses ++ [.checksum s.cksA s.cksB] }

/-- `CKS.SPAN` is clear, update with each byte, read; the returned pair also stays in the accumulators (the trace of returned
values is the model's, log entry 3). -/
def Obligations.ChecksumSpanIsClearUpdateRead : Prop :=
  ∀ (bs : List Byte) (s : State),
    exec (.cksSpan bs) s = execAll (.cksClr :: (bs.map .cksUpd ++ [.cksRd])) s ∧
    exec (.cksSpan bs) s = .next { s with
      cksA := (cks bs).1, cksB := (cks bs).2, responses := s.responses ++ [.checksum (cks bs).1 (cks bs).2] }

/-- R117. -/
def Obligations.ChecksumClosedForm : Prop :=
  ∀ bs : List Byte, (cks bs).1.toNat = byteSum bs % 256 ∧ (cks bs).2.toNat = weightedSum bs % 256

/-- R119. -/
def Obligations.ChecksumIncremental : Prop :=
  ∀ (bs t : List Byte) (s : State), s.cksA = (cks bs).1 → s.cksB = (cks bs).2 →
    execAll (t.map .cksUpd) s = .next { s with cksA := (cks (bs ++ t)).1, cksB := (cks (bs ++ t)).2 }

/-- R120: a flip of any single bit of a covered byte changes `A`, and a flip of any single bit of a covered or trailer byte of a
frame that passed the checksum check makes it fail. -/
def Obligations.SingleBitFlipDetected : Prop :=
  ∀ (f : List Byte) (fl i k : Nat), 2 ≤ fl → fl ≤ f.length → k < 8 →
    (i + 2 < fl → (coveredSum (f.set i (byteAt f i ^^^ (1#8 <<< k))) fl).1 ≠ (coveredSum f fl).1) ∧
    (i < fl → cksCheck f fl = true → cksCheck (f.set i (byteAt f i ^^^ (1#8 <<< k))) fl = false)

/-! ## The synchronizer -/

/-- R127. -/
def Obligations.MarkerMatching : Prop :=
  ∀ (b : Byte) (s : State),
    (s.synHalf = false → b = 0x75 → exec (.synByte b) s = .next { s with synHalf := true }) ∧
    (s.synHalf = false → b ≠ 0x75 → exec (.synByte b) s = .next s) ∧
    (s.synHalf = true → b = 0x65 → exec (.synByte b) s = .next { s with
      synHalf := false, rxBuf := memWrite (memWrite s.rxBuf 0 0x75) 1 0x65, rxIdx := 2, synState := .synced }) ∧
    (s.synHalf = true → b ≠ 0x65 → exec (.synByte b) s = .next { s with synHalf := false }) ∧
    decode .scanning (.rxByte b) = .ok (.synByte b)

/-- R130: after a first marker byte, a second byte that does not match is discarded with it, whatever it is, and the byte after
the pair is looked at afresh. -/
def Obligations.FailedPairDiscarded : Prop :=
  ∀ (b : Byte) (s : State), b ≠ 0x65 → s.synHalf = false →
    execAll [.synByte 0x75, .synByte b] s = .next s ∧
    execAll [.synByte 0x75, .synByte 0x75, .synByte 0x65] s = .next s ∧
    ∀ c : Byte, execAll [.synByte 0x75, .synByte b, .synByte c] s = exec (.synByte c) s

/-- R132. -/
def Obligations.SyncDeadline : Prop :=
  ∀ s : State,
    exec .synDeadline s = .next { s with synHalf := false, errors := s.errors ++ [.syncTimeout] } ∧
    execAll [.synDeadline, .synByte 0x65] s =
      .next { s with synHalf := false, errors := s.errors ++ [.syncTimeout] } ∧
    decode .scanning .rxDeadline = .ok .synDeadline

/-- R133. -/
def Obligations.ResyncTakesTwoBytes : Prop :=
  ∀ (s : State) (rest : List Stimulus), s.synState = .scanning → s.synHalf = false →
    s.stimuli = .rxByte 0x75 :: .rxByte 0x65 :: rest →
    ∃ t, run 2 s = .next t ∧ t.synState = .synced ∧ t.synHalf = false ∧ t.rxIdx = 2 ∧ t.stimuli = rest ∧
      rxRead t 0 = some 0x75 ∧ rxRead t 1 = some 0x65 ∧ t.records = s.records ∧ t.errors = s.errors

/-! ## The collector -/

/-- R142: the byte is stored and counted; when the frame is complete it is decoded with the registers as they stand, the receive
path is back in Scanning, and the record or the error is posted; in a state that meets the invariant the error is neither
`TruncatedFrame` nor `BadSync`. -/
def Obligations.CollectByte : Prop :=
  ∀ (b : Byte) (s : State), s.rxIdx.toNat < 261 → (∀ a < s.rxIdx.toNat, (memRead s.rxBuf a).isSome) →
    let u : State := { s with rxBuf := memWrite s.rxBuf s.rxIdx.toNat b, rxIdx := s.rxIdx + 1 }
    ((s.rxIdx.toNat + 1 < 4 ∨ ∃ n, memRead u.rxBuf 3 = some n ∧ s.rxIdx.toNat + 1 ≠ n.toNat + 6) →
      exec (.rxcByte b) s = .next u) ∧
    ((4 ≤ s.rxIdx.toNat + 1 ∧ ∃ n, memRead u.rxBuf 3 = some n ∧ s.rxIdx.toNat + 1 = n.toNat + 6) →
      ∃ buf : List Byte, buf.length = s.rxIdx.toNat + 1 ∧ (∀ a < buf.length, buf[a]? = memRead u.rxBuf a) ∧
        exec (.rxcByte b) s = .next
          (match decodeFrame buf s.expDs s.expFd (s.cfg.getLsbD 0) with
           | .ok r => { u with synState := .scanning, synHalf := false, rxIdx := 0, records := s.records ++ [r] }
           | .err e => { u with synState := .scanning, synHalf := false, rxIdx := 0, errors := s.errors ++ [e] })) ∧
    (Inv s → s.synState = .synced → ∀ t, exec (.rxcByte b) s = .next t →
      t.errors ≠ s.errors ++ [.truncatedFrame] ∧ ∀ p, t.errors ≠ s.errors ++ [.badSync p]) ∧
    decode .synced (.rxByte b) = .ok (.rxcByte b)

/-- R60, R37, R39: in every state that meets the invariant no step goes outside a buffer. The only fault of a step is the end of the
input sequence, and `RXC.BYTE` answers a next state. In the states the invariant excludes, where the spec has no rule, `RXC.BYTE`
stops as log entry 4 says. -/
def Obligations.NoBufferFaultUnderInv : Prop :=
  ∀ s : State,
    (Inv s → ∀ f, step s = .fault f ↔ f = .noStimulus ∧ s.stimuli = []) ∧
    (Inv s → s.synState = .synced → s.rxIdx.toNat ≤ 260 ∧ ∀ b, ∃ t, exec (.rxcByte b) s = .next t) ∧
    ∀ b,
      (261 ≤ s.rxIdx.toNat → exec (.rxcByte b) s = .fault .rxBufOverrun) ∧
      (4 ≤ s.rxIdx.toNat → s.rxIdx.toNat < 261 → memRead s.rxBuf 3 = none →
        exec (.rxcByte b) s = .fault .rxBufUnreadable)

/-- R144: in stream mode checks 1 and 5 always pass, so the errors a completion posts are of the other kinds. -/
def Obligations.StreamModeErrors : Prop :=
  ∀ (b : Byte) (s t : State), Inv s → s.synState = .synced → exec (.rxcByte b) s = .next t →
    t.errors = s.errors ∨
    ∃ e, t.errors = s.errors ++ [e] ∧ e ≠ .truncatedFrame ∧ (∀ p, e ≠ .badSync p) ∧
      ((∃ p q, e = .checksumMismatch p q) ∨ (∃ d, e = .unexpectedDescriptorSet d) ∨
       (∃ d, e = .unexpectedFieldDescriptor d) ∨ (∃ o, e = .malformedField o) ∨ ∃ d, e = .unsupportedField d)

/-- R147. -/
def Obligations.CollectDeadline : Prop :=
  ∀ s : State,
    exec .rxcDeadline s = .next { s with
      synState := .scanning, synHalf := false, rxIdx := 0, errors := s.errors ++ [.truncatedFrame] } ∧
    decode .synced .rxDeadline = .ok .rxcDeadline

/-- R150: the transition table of the receive path, one conjunct per group of rows; every row answers a next state. -/
def Obligations.ReceivePathTransitions : Prop :=
  ∀ (s : State) (rest : List Stimulus), Inv s →
    (∀ b, s.stimuli = .rxByte b :: rest → ∃ t, step s = .next t ∧
      (s.synState = .scanning → s.synHalf = false →
        t.synState = .scanning ∧ t.synHalf = decide (b = 0x75) ∧ t.rxIdx = 0 ∧
        t.records = s.records ∧ t.errors = s.errors) ∧
      (s.synState = .scanning → s.synHalf = true →
        (b = 0x65 → t.synState = .synced ∧ t.synHalf = false ∧ t.rxIdx = 2) ∧
        (b ≠ 0x65 → t.synState = .scanning ∧ t.synHalf = false ∧ t.rxIdx = 0) ∧
        t.records = s.records ∧ t.errors = s.errors) ∧
      (s.synState = .synced →
        let n := (memRead (memWrite s.rxBuf s.rxIdx.toNat b) 3).getD 0
        let done := 4 ≤ s.rxIdx.toNat + 1 ∧ s.rxIdx.toNat + 1 = n.toNat + 6
        (¬ done → t.synState = .synced ∧ t.synHalf = false ∧ t.rxIdx.toNat = s.rxIdx.toNat + 1 ∧
          t.records = s.records ∧ t.errors = s.errors) ∧
        (done → t.synState = .scanning ∧ t.synHalf = false ∧ t.rxIdx = 0 ∧
          ((∃ r, t.records = s.records ++ [r] ∧ t.errors = s.errors) ∨
           (∃ e, t.records = s.records ∧ t.errors = s.errors ++ [e]))))) ∧
    (s.stimuli = .rxDeadline :: rest → ∃ t, step s = .next t ∧
      t.synState = .scanning ∧ t.synHalf = false ∧ t.rxIdx = 0 ∧ t.records = s.records ∧
      (s.synState = .scanning → t.errors = s.errors ++ [.syncTimeout]) ∧
      (s.synState = .synced → t.errors = s.errors ++ [.truncatedFrame])) ∧
    (∀ o, s.stimuli = .request 0x4 o :: rest → ∃ t, step s = .next t ∧
      t.synState = .scanning ∧ t.synHalf = false ∧ t.rxIdx = 0 ∧ t.records = s.records ∧ t.errors = s.errors)

/-- The receive path as a whole (R125 to R146): from Scanning with no half match, the bytes of one frame are collected and decoded
once, exactly as direct mode would, and the engine is in Scanning again; nothing but the receive path's own state and that one
output changes. -/
def Obligations.StreamedFrameDecodedOnce : Prop :=
  ∀ (f : List Byte) (s : State) (rest : List Stimulus),
    s.synState = .scanning → s.synHalf = false → s.stimuli = f.map .rxByte ++ rest →
    6 ≤ f.length → f.length = announced f + 6 → byteAt f 0 = 0x75 → byteAt f 1 = 0x65 →
    ∃ rb, run f.length s = .next
      (match decodeFrame f s.expDs s.expFd (unitsG s) with
       | .ok r => { s with stimuli := rest, synHalf := false, rxIdx := 0, rxBuf := rb, records := s.records ++ [r] }
       | .err e => { s with stimuli := rest, synHalf := false, rxIdx := 0, rxBuf := rb, errors := s.errors ++ [e] })

/-! ## The validator -/

/-- R157. -/
def Obligations.LengthCheck : Prop :=
  ∀ (buf : List Byte) (ds : Byte) (fds : BitVec 256) (g : Bool),
    decodeFrame buf ds fds g = .err .truncatedFrame ↔ buf.length < 6 ∨ buf.length < announced buf + 6

/-- R158, R159. -/
def Obligations.ChecksumCheck : Prop :=
  ∀ (buf : List Byte) (ds : Byte) (fds : BitVec 256) (g : Bool), HoldsFrame buf →
    (¬ TrailerMatches buf → decodeFrame buf ds fds g = .err (.checksumMismatch (cks (buf.take (announced buf + 4)))
      (byteAt buf (announced buf + 4), byteAt buf (announced buf + 5)))) ∧
    (TrailerMatches buf → ∀ p q, decodeFrame buf ds fds g ≠ .err (.checksumMismatch p q))

/-- R160. -/
def Obligations.DescriptorSetCheck : Prop :=
  ∀ (buf : List Byte) (ds : Byte) (fds : BitVec 256) (g : Bool), HoldsFrame buf → TrailerMatches buf →
    (byteAt buf 2 ≠ ds ∨ byteAt buf 2 ∉ Config.dsEnum →
      decodeFrame buf ds fds g = .err (.unexpectedDescriptorSet (byteAt buf 2))) ∧
    (byteAt buf 2 = ds → ds ∈ Config.dsEnum → ∀ d, decodeFrame buf ds fds g ≠ .err (.unexpectedDescriptorSet d))

/-- R161 to R163, R85: the field walk accepts exactly the payloads that are fields back to back, each expected, and returns them. -/
def Obligations.WalkAcceptsExactlyFields : Prop :=
  ∀ (fds : BitVec 256) (n off : Nat) (p : List Byte) (raw : List (Byte × List Byte)), p.length ≤ n →
    (walkFields fds n off p = .ok raw ↔ p = serializeFields raw ∧ ∀ f ∈ raw, FieldPasses fds f)

/-- R161, R162, R163, R251: the first field in wire order that fails decides, structure before descriptor, with its frame offset;
where no field fails, check 4 passes. -/
def Obligations.FirstFailingFieldDecides : Prop :=
  ∀ (buf : List Byte) (ds : Byte) (fds : BitVec 256) (g : Bool) (good : List (Byte × List Byte)) (tail : List Byte),
    PassesHeader buf ds → payload buf = serializeFields good ++ tail → (∀ f ∈ good, FieldPasses fds f) →
    (∀ x, tail = [x] →
      decodeFrame buf ds fds g = .err (.malformedField (4 + (serializeFields good).length))) ∧
    (∀ l d rest, tail = l :: d :: rest → (l.toNat < 2 ∨ rest.length + 2 < l.toNat) →
      decodeFrame buf ds fds g = .err (.malformedField (4 + (serializeFields good).length))) ∧
    (∀ l d rest, tail = l :: d :: rest → 2 ≤ l.toNat → l.toNat ≤ rest.length + 2 → expects fds d = false →
      decodeFrame buf ds fds g = .err (.unexpectedFieldDescriptor d)) ∧
    (tail = [] → (∀ o, decodeFrame buf ds fds g ≠ .err (.malformedField o)) ∧
      ∀ d, decodeFrame buf ds fds g ≠ .err (.unexpectedFieldDescriptor d))

/-- R164: `BadSync`, with the two bytes found, exactly when checks 1 to 4 pass and the first two bytes are not the marker. -/
def Obligations.SyncBytesCheckedFifth : Prop :=
  ∀ (buf : List Byte) (ds : Byte) (fds : BitVec 256) (g : Bool) (p : Byte × Byte),
    decodeFrame buf ds fds g = .err (.badSync p) ↔
      PassesHeader buf ds ∧ (∃ raw, payload buf = serializeFields raw ∧ ∀ f ∈ raw, FieldPasses fds f) ∧
      (byteAt buf 0 ≠ 0x75 ∨ byteAt buf 1 ≠ 0x65) ∧ p = (byteAt buf 0, byteAt buf 1)

/-- R166: interpretation after all five checks. A record exactly when every field has a value, its fields in wire order;
`UnsupportedField` exactly when a field has none, naming the first such. -/
def Obligations.InterpretationAfterChecks : Prop :=
  ∀ (buf : List Byte) (ds : Byte) (fds : BitVec 256) (g : Bool),
    (∀ r : Record, decodeFrame buf ds fds g = .ok r ↔
      PassesHeader buf ds ∧ byteAt buf 0 = 0x75 ∧ byteAt buf 1 = 0x65 ∧ r.descriptorSet = ds ∧
      ∃ raw, payload buf = serializeFields raw ∧ (∀ f ∈ raw, FieldPasses fds f) ∧
        raw.map (fun f => extract ds f.1 f.2 g) = r.fields.map some) ∧
    (∀ fd, decodeFrame buf ds fds g = .err (.unsupportedField fd) ↔
      PassesHeader buf ds ∧ byteAt buf 0 = 0x75 ∧ byteAt buf 1 = 0x65 ∧
      ∃ good d rest, payload buf = serializeFields (good ++ (fd, d) :: rest) ∧
        (∀ f ∈ good ++ (fd, d) :: rest, FieldPasses fds f) ∧
        (∀ f ∈ good, (extract ds f.1 f.2 g).isSome) ∧ extract ds fd d g = none)

/-- R169: a frame with no payload decodes to the empty-field record, whatever descriptors are expected. -/
def Obligations.EmptyFrameDecodes : Prop :=
  ∀ (buf : List Byte) (ds : Byte) (fds : BitVec 256) (g : Bool), PassesHeader buf ds → announced buf = 0 →
    byteAt buf 0 = 0x75 → byteAt buf 1 = 0x65 → decodeFrame buf ds fds g = .ok { descriptorSet := ds, fields := [] }

/-- R167. -/
def Obligations.BytesBeyondFrameIgnored : Prop :=
  ∀ (buf : List Byte) (ds : Byte) (fds : BitVec 256) (g : Bool), HoldsFrame buf →
    decodeFrame buf ds fds g = decodeFrame (buf.take (announced buf + 6)) ds fds g

/-- R173: what the builder makes, the validator reads back. -/
def Obligations.BuiltFrameRoundTrips : Prop :=
  ∀ (ds : Byte) (fields : List (Byte × List Byte)) (f : List Byte) (fds : BitVec 256) (g : Bool),
    build ds fields = .ok f → (∀ p ∈ fields, expects fds p.1 = true) →
    (ds ∈ Config.commandSets → decodeFrame f ds fds g =
      .ok { descriptorSet := ds, fields := fields.map fun p => .raw p.1 p.2 }) ∧
    (ds = 0x80 → ∀ vs, decodeFrame f ds fds g = .ok { descriptorSet := ds, fields := vs } ↔
      fields.map (fun p => extract 0x80 p.1 p.2 g) = vs.map some)

/-- R172. -/
def Obligations.RecordTagFollowsFields : Prop :=
  ∀ r : Record,
    (recordTag r = .empty ↔ r.fields = []) ∧
    (recordTag r = .accel ↔ ∃ x y z g, r.fields = [.accel x y z g]) ∧
    (recordTag r = .towAccel ↔ ∃ w k x y z g,
      r.fields = [.gpsTime w k, .accel x y z g] ∨ r.fields = [.accel x y z g, .gpsTime w k])

/-- Direct mode hands the result back and changes nothing else; the units flag is `CFG.UNITS_G` (the trace of returned values is
the model's, log entry 3). -/
def Obligations.DirectDecodeChangesNothing : Prop :=
  ∀ (buf : List Byte) (ds : Byte) (fds : BitVec 256) (s : State),
    exec (.decDecode buf ds fds) s = .next { s with
      responses := s.responses ++ [.decoded (decodeFrame buf ds fds (s.cfg.getLsbD 0))] }

/-! ## The extractor -/

/-- R183, R86: twelve bytes are three big-endian patterns and the units flag is copied; no other length has a value. -/
def Obligations.AccelReading : Prop :=
  ∀ (g : Bool) (d : List Byte),
    (d.length ≠ 12 → extract 0x80 0x04 d g = none) ∧
    ∀ b0 b1 b2 b3 b4 b5 b6 b7 b8 b9 b10 b11 : Byte,
      extract 0x80 0x04 [b0, b1, b2, b3, b4, b5, b6, b7, b8, b9, b10, b11] g =
        some (.accel (b0 ++ b1 ++ b2 ++ b3) (b4 ++ b5 ++ b6 ++ b7) (b8 ++ b9 ++ b10 ++ b11) g)

/-- R185, R86: the first ten bytes are a 64-bit pattern and a 16-bit number, the rest is ignored; fewer have no value. -/
def Obligations.GpsTimeReading : Prop :=
  ∀ (g : Bool) (d : List Byte),
    (d.length < 10 → extract 0x80 0xD3 d g = none) ∧
    ∀ b0 b1 b2 b3 b4 b5 b6 b7 b8 b9 : Byte,
      extract 0x80 0xD3 (b0 :: b1 :: b2 :: b3 :: b4 :: b5 :: b6 :: b7 :: b8 :: b9 :: d) g =
        some (.gpsTime (b0 ++ b1 ++ b2 ++ b3 ++ b4 ++ b5 ++ b6 ++ b7) (b8 ++ b9))

/-- R188, R187: the three cases in which a field has no value, and the RAW form otherwise untouched. -/
def Obligations.UnsupportedInThreeCases : Prop :=
  ∀ (ds fd : Byte) (d : List Byte) (g : Bool), ds ∈ Config.dsEnum →
    (extract ds fd d g = none ↔
      (ds = 0x80 ∧ fd ≠ 0x04 ∧ fd ≠ 0xD3) ∨ (ds = 0x80 ∧ fd = 0x04 ∧ d.length ≠ 12) ∨
      (ds = 0x80 ∧ fd = 0xD3 ∧ d.length < 10)) ∧
    (ds ∈ Config.commandSets → extract ds fd d g = some (.raw fd d))

/-- The three extraction forms run as steps of their own: the value, or `UnsupportedField`, is handed back and nothing else
changes. A field given as a stimulus whose key selects no form hands back `UnsupportedField` where set 0x80 has no shape for it, and
is refused by name where it is no field (that they are steps at all, the refusals, and the trace of returned values are the model's
choices: log entries 3 and 7). -/
def Obligations.ExtractionSteps : Prop :=
  ∀ (d : List Byte) (ds fl fd : Byte) (s : State) (rest : List Stimulus),
    exec (.extAccel d) s = .next { s with responses := s.responses ++ [.extracted
      (match extract 0x80 0x04 d (s.cfg.getLsbD 0) with
       | some v => .ok v
       | none => .err (.unsupportedField 0x04))] } ∧
    exec (.extGpstime d) s = .next { s with responses := s.responses ++ [.extracted
      (match extract 0x80 0xD3 d (s.cfg.getLsbD 0) with
       | some v => .ok v
       | none => .err (.unsupportedField 0xD3))] } ∧
    exec (.extRaw ds fd d) s = .next { s with responses := s.responses ++ [.extracted (.ok (.raw fd d))] } ∧
    (s.stimuli = .field (fieldKey ds fl fd) d :: rest →
      (d.length < fl.toNat - 2 → step s = .refused .fieldCutShort) ∧
      (fl.toNat - 2 ≤ d.length → ds = 0x80 → fd ≠ 0x04 → fd ≠ 0xD3 → step s = .next { s with
        stimuli := rest, responses := s.responses ++ [.extracted (.err (.unsupportedField fd))] }) ∧
      (fl.toNat - 2 ≤ d.length → ds ∈ Config.commandSets → fl.toNat < 2 →
        step s = .refused .fieldOfReservedLength) ∧
      (fl.toNat - 2 ≤ d.length → ds ∉ Config.dsEnum → step s = .refused (.fieldOfUnknownSet ds)))

/-- R86; and the `n`-byte big-endian form of 47_command_templates.md R211 and R217, `bytes_be(v, n)`. -/
def Obligations.BigEndianAssembly : Prop :=
  (∀ b0 b1 : Byte, (be16 [b0, b1]).toNat = b0.toNat * 2 ^ 8 + b1.toNat) ∧
  (∀ b0 b1 b2 b3 : Byte,
    (be32 [b0, b1, b2, b3]).toNat = b0.toNat * 2 ^ 24 + b1.toNat * 2 ^ 16 + b2.toNat * 2 ^ 8 + b3.toNat) ∧
  (∀ b0 b1 b2 b3 b4 b5 b6 b7 : Byte, (be64 [b0, b1, b2, b3, b4, b5, b6, b7]).toNat =
    b0.toNat * 2 ^ 56 + b1.toNat * 2 ^ 48 + b2.toNat * 2 ^ 40 + b3.toNat * 2 ^ 32 + b4.toNat * 2 ^ 24 +
      b5.toNat * 2 ^ 16 + b6.toNat * 2 ^ 8 + b7.toNat) ∧
  (∀ v : BitVec 32, be32 (bytesBe32 v) = v ∧ (bytesBe32 v).length = 4) ∧
  ∀ v n : Nat, (bytesBe v n).length = n ∧ beNat (bytesBe v n) = v % 256 ^ n

/-! ## The builder and the templates -/

/-- R196, R199, R201: a command the builder accepts goes out whole, in this layout; the three refusals in the order they are
tested, with which nothing is emitted and no register changes. -/
def Obligations.BuildEmitsOrRefuses : Prop :=
  ∀ (ds : Byte) (fields : List (Byte × List Byte)) (s : State) (st : SynState) (o : Operands),
    let n : Nat := (fields.map fun f => 2 + f.2.length).sum
    let covered : List Byte := [0x75, 0x65, ds, BitVec.ofNat 8 n] ++
      fields.flatMap fun f => BitVec.ofNat 8 (2 + f.2.length) :: f.1 :: f.2
    (ds ∈ Config.dsEnum → (∀ f ∈ fields, f.2.length ≤ 253) → n ≤ 255 →
      Emits (covered ++ [(cks covered).1, (cks covered).2]) s (exec (.bldBuild ds fields) s)) ∧
    (ds ∉ Config.dsEnum →
      exec (.bldBuild ds fields) s = .next { s with errors := s.errors ++ [.badDescriptorSet ds] }) ∧
    (ds ∈ Config.dsEnum → ∀ front f back, fields = front ++ f :: back → (∀ p ∈ front, p.2.length ≤ 253) →
      253 < f.2.length →
      exec (.bldBuild ds fields) s = .next { s with errors := s.errors ++ [.fieldTooLong front.length] }) ∧
    (ds ∈ Config.dsEnum → (∀ p ∈ fields, p.2.length ≤ 253) → 255 < n →
      exec (.bldBuild ds fields) s = .next { s with errors := s.errors ++ [.payloadTooLong n] }) ∧
    decode st (.request 0x6 o) = .ok (.bldBuild o.ds o.fields)

/-- R197: the layout of a built frame, and that it meets every invariant of a frame. -/
def Obligations.BuiltFrameWellFormed : Prop :=
  ∀ (ds : Byte) (fields : List (Byte × List Byte)) (f : List Byte), build ds fields = .ok f →
    announced f = (fields.map fun p => 2 + p.2.length).sum ∧ f.length = announced f + 6 ∧
    6 ≤ f.length ∧ f.length ≤ 261 ∧ byteAt f 0 = 0x75 ∧ byteAt f 1 = 0x65 ∧ byteAt f 2 = ds ∧ TrailerMatches f ∧
    payload f = serializeFields fields

/-- R211: each template is one `BLD.BUILD` with one field, its parameters are legal, and the two cells the spec fixes hold. -/
def Obligations.TemplatesExpandToBuild : Prop :=
  ∀ (p : List Byte) (x y z : BitVec 32) (tds tfd : Byte) (dec : Nat) (s : State),
    let as (t : TemplateName) (d : List Byte) : Instr :=
      .bldBuild (setByte (Config.template t).ds) [((Config.template t).fd, (Config.template t).pre ++ d)]
    exec .cmdIdle s = exec (as .idle []) s ∧
    exec .cmdResume s = exec (as .resume []) s ∧
    exec (.cmdPpsSource p) s = exec (as .ppsSource p) s ∧
    exec (.cmdPpsPulse p) s = exec (as .ppsPulse p) s ∧
    exec (.cmdGnssOffset x y z) s = exec (as .gnssOffset (bytesBe32 x ++ bytesBe32 y ++ bytesBe32 z)) s ∧
    exec (.cmdMsgFormat tds tfd dec) s = exec (as .msgFormat (tds :: tfd :: bytesBe dec Config.decimBytes)) s ∧
    exec (.cmdStreamEn p) s = exec (as .streamEn p) s ∧
    exec (.cmdPoll p) s = exec (as .poll p) s ∧
    (∀ t, setByte (Config.template t).ds ∈ Config.dsEnum ∧
      (Config.template t).pre.length + Config.fixedOperandBytes t ≤ 253) ∧
    setByte (Config.template .gnssOffset).ds = 0x0D ∧ (Config.template .msgFormat).fd = 0x0F

/-- R212, R213, R216, R217: the templates whose operands have a fixed width always send their frame, for every legal value of the
parameters (log entries 8 and 9). -/
def Obligations.FixedTemplatesSendFrame : Prop :=
  ∀ (x y z : BitVec 32) (tds tfd : Byte) (dec : Nat) (s : State),
    let sent (t : TemplateName) (d : List Byte) : List Byte :=
      oneFieldFrame (setByte (Config.template t).ds) (Config.template t).fd ((Config.template t).pre ++ d)
    Emits (sent .idle []) s (exec .cmdIdle s) ∧
    Emits (sent .resume []) s (exec .cmdResume s) ∧
    Emits (sent .gnssOffset (bytesBe32 x ++ bytesBe32 y ++ bytesBe32 z)) s (exec (.cmdGnssOffset x y z) s) ∧
    Emits (sent .msgFormat (tds :: tfd :: bytesBe dec Config.decimBytes)) s (exec (.cmdMsgFormat tds tfd dec) s)

/-- R214, R215, R218, R219: the templates that carry payload bytes send their frame when prefix and payload fit one field, and
are refused when they do not (log entry 8). -/
def Obligations.PayloadTemplatesSendFrame : Prop :=
  ∀ (p : List Byte) (s : State),
    let sent (t : TemplateName) : List Byte :=
      oneFieldFrame (setByte (Config.template t).ds) (Config.template t).fd ((Config.template t).pre ++ p)
    let fits (t : TemplateName) : Prop := (Config.template t).pre.length + p.length ≤ 253
    let tooLong : Host.Outcome State Fault Refusal := .next { s with errors := s.errors ++ [.fieldTooLong 0] }
    (fits .ppsSource → Emits (sent .ppsSource) s (exec (.cmdPpsSource p) s)) ∧
    (fits .ppsPulse → Emits (sent .ppsPulse) s (exec (.cmdPpsPulse p) s)) ∧
    (fits .streamEn → Emits (sent .streamEn) s (exec (.cmdStreamEn p) s)) ∧
    (fits .poll → Emits (sent .poll) s (exec (.cmdPoll p) s)) ∧
    (¬ fits .ppsSource → exec (.cmdPpsSource p) s = tooLong) ∧
    (¬ fits .ppsPulse → exec (.cmdPpsPulse p) s = tooLong) ∧
    (¬ fits .streamEn → exec (.cmdStreamEn p) s = tooLong) ∧
    (¬ fits .poll → exec (.cmdPoll p) s = tooLong)

/-! ## System operations -/

/-- R231. -/
def Obligations.Rearm : Prop :=
  ∀ (s : State) (st : SynState) (o : Operands),
    exec .synRearm s = .next { s with synState := .scanning, synHalf := false, rxIdx := 0 } ∧
    decode st (.request 0x4 o) = .ok .synRearm

/-- `CFG.WR` as 48_system_ops.md R233 gives it; that a request's value is read at the register's width is the model's choice (log
entry 1). -/
def Obligations.ConfigWrite : Prop :=
  ∀ (v : BitVec 256) (s : State) (st : SynState) (o : Operands),
    exec (.cfgWr .expDs v) s = .next { s with expDs := v.extractLsb' 0 8 } ∧
    exec (.cfgWr .expFd v) s = .next { s with expFd := v } ∧
    exec (.cfgWr .cfg v) s = .next { s with cfg := if v.getLsbD 0 then 1 else 0 } ∧
    exec (.cfgWr .status v) s = .next s ∧
    ∃ w, decode st (.request 0x7 o) = .ok (.cfgWr o.reg w) ∧ w.toNat = o.value.toNat % 2 ^ o.reg.width

/-- `CFG.RD` hands back the register with reserved bits 0, `STATUS` mirroring `SYN_STATE`, and writes nothing (the trace of
returned values is the model's, log entry 3). -/
def Obligations.ConfigRead : Prop :=
  ∀ (reg : Reg) (s : State), ∃ v : BitVec 256,
    exec (.cfgRd reg) s = .next { s with responses := s.responses ++ [.register reg v] } ∧
    (reg = .expDs → v.toNat = s.expDs.toNat) ∧
    (reg = .expFd → v = s.expFd) ∧
    (reg = .cfg → v.toNat = s.cfg.toNat % 2) ∧
    (reg = .status → v.toNat = if s.synState = .synced then 1 else 0)

/-- A reserved `OPSEL` changes no state and emits nothing; the requester is told it is refused (that telling is an entry of the
model's trace of returned values: log entries 3 and 11). -/
def Obligations.ReservedRequestsRefused : Prop :=
  ∀ s : State,
    let told (n : BitVec 4) : Host.Outcome State Fault Refusal :=
      .next { s with responses := s.responses ++ [.refused n] }
    exec .reserved9 s = told 0x9 ∧ exec .reservedA s = told 0xA ∧ exec .reservedB s = told 0xB ∧
    exec .reservedC s = told 0xC ∧ exec .reservedD s = told 0xD ∧ exec .reservedE s = told 0xE ∧
    exec .reservedF s = told 0xF

/-! ## The whole machine -/

/-- R37: every step from a state that meets the invariant leads to one that meets it, reachable or not. -/
def Obligations.StepKeepsInv : Prop := ∀ s t : State, Inv s → step s = .next t → Inv t

/-- R39, R257: while a stimulus from the byte source or the host is waiting, a state that meets the invariant has a next state;
the engine never halts and no error is fatal. A field given as a stimulus (log entry 7) has one too, or is refused by name. -/
def Obligations.EngineNeverHalts : Prop :=
  ∀ (s : State) (x : Stimulus) (rest : List Stimulus), Inv s → s.stimuli = x :: rest →
    ((∀ key data, x ≠ .field key data) → ∃ t, step s = .next t ∧ t.stimuli = rest) ∧
    (∀ key data, x = .field key data →
      (∃ t, step s = .next t ∧ t.stimuli = rest) ∨ step s = .refused .fieldCutShort ∨
      step s = .refused .fieldOfReservedLength ∨ ∃ ds, step s = .refused (.fieldOfUnknownSet ds))

/-- R35: nothing is ever taken back from an output. -/
def Obligations.OutputsOnlyGrow : Prop := ∀ s t : State, step s = .next t → OutputsGrow s t

/-- R249, R63: one stimulus posts at most one record or error on the outputs, never both. -/
def Obligations.OneOutputPerStimulus : Prop :=
  ∀ s t : State, step s = .next t →
    (t.records = s.records ∧ t.errors = s.errors) ∨
    (∃ r, t.records = s.records ++ [r] ∧ t.errors = s.errors) ∨
    (∃ e, t.records = s.records ∧ t.errors = s.errors ++ [e])

/-- R22, R30 to R32: who writes the accumulators and the control registers. -/
def Obligations.RegistersWrittenOnlyByTheirOperations : Prop :=
  ∀ (i : Instr) (s t : State), exec i s = .next t →
    (usesChecksumPort i = false → t.cksA = s.cksA ∧ t.cksB = s.cksB) ∧
    ((∀ v, i ≠ .cfgWr .expDs v) → t.expDs = s.expDs) ∧
    ((∀ v, i ≠ .cfgWr .expFd v) → t.expFd = s.expFd) ∧
    ((∀ v, i ≠ .cfgWr .cfg v) → t.cfg = s.cfg) ∧
    t.stimuli = s.stimuli

/-- R23: no operation outside the checksum port reads the visible accumulators, so changing them changes nothing else. -/
def Obligations.AccumulatorsVisibleOnlyToPort : Prop :=
  ∀ (i : Instr) (s t : State) (a b : Byte), usesChecksumPort i = false → exec i s = .next t →
    exec i { s with cksA := a, cksB := b } = .next { t with cksA := a, cksB := b }

/-- R4: the two directions never mix. Only `BLD.BUILD` and the templates touch the transmit stream and its scratch, and they
touch nothing of the receive path. -/
def Obligations.DirectionsNeverMix : Prop :=
  ∀ (i : Instr) (s t : State), exec i s = .next t →
    (sendsFrame i = false → t.txStream = s.txStream ∧ t.txBuf = s.txBuf ∧ t.txLen = s.txLen) ∧
    (sendsFrame i = true → t.synState = s.synState ∧ t.synHalf = s.synHalf ∧ t.rxIdx = s.rxIdx ∧ t.rxBuf = s.rxBuf ∧
      t.records = s.records ∧ t.responses = s.responses)

/-- R247: no operation raises `AckMismatch`. Beside it the codes of R241's table, never 0, and which operation posts which code on
the error output. -/
def Obligations.ErrorCodesAndWhoRaisesThem : Prop :=
  (∀ s t : State, step s = .next t → ErrorEvent.ackMismatch ∈ t.errors → ErrorEvent.ackMismatch ∈ s.errors) ∧
  (∀ (p q : Byte × Byte) (d : Byte) (n : Nat),
    ErrorEvent.syncTimeout.code = 1 ∧ (ErrorEvent.checksumMismatch p q).code = 2 ∧
    (ErrorEvent.unexpectedDescriptorSet d).code = 3 ∧ (ErrorEvent.unexpectedFieldDescriptor d).code = 4 ∧
    ErrorEvent.truncatedFrame.code = 5 ∧ (ErrorEvent.unsupportedField d).code = 6 ∧ ErrorEvent.ackMismatch.code = 7 ∧
    (ErrorEvent.badSync p).code = 8 ∧ (ErrorEvent.malformedField n).code = 9 ∧ (ErrorEvent.badDescriptorSet d).code = 10 ∧
    (ErrorEvent.fieldTooLong n).code = 11 ∧ (ErrorEvent.payloadTooLong n).code = 12) ∧
  (∀ e : ErrorEvent, e.code ≠ 0) ∧
  ∀ (i : Instr) (s t : State) (e : ErrorEvent), exec i s = .next t → t.errors = s.errors ++ [e] →
    (i = .synDeadline ∧ e.code = 1) ∨ (i = .rxcDeadline ∧ e.code = 5) ∨
    ((∃ b, i = .rxcByte b) ∧ e.code ∈ [2, 3, 4, 5, 6, 8, 9]) ∨ (sendsFrame i = true ∧ e.code ∈ [10, 11, 12])

/-- R60: the only bytes of `RX_BUF` an operation changes are those it stores to: the marker's two cells, or the cell at `RX_IDX`. -/
def Obligations.ReceiveBufferFrame : Prop :=
  ∀ (i : Instr) (s t : State), exec i s = .next t → ∀ a, a ∉ storesRx i s → memRead t.rxBuf a = memRead s.rxBuf a
end

