-- ==== Sys2Proof/Laws/State.lean ====
section
/-! SUPPORT. What each named update of the state does to each field: one lemma per field per update, so that no proof unfolds
a record update. -/

namespace Sys2Proof.Machine

/-! ## setCks -/

@[simp] theorem setCks_cksA (ab : Byte × Byte) (s : State) : (setCks ab s).cksA = ab.1 := rfl
@[simp] theorem setCks_cksB (ab : Byte × Byte) (s : State) : (setCks ab s).cksB = ab.2 := rfl
@[simp] theorem setCks_synState (ab : Byte × Byte) (s : State) : (setCks ab s).synState = s.synState := rfl
@[simp] theorem setCks_synHalf (ab : Byte × Byte) (s : State) : (setCks ab s).synHalf = s.synHalf := rfl
@[simp] theorem setCks_rxIdx (ab : Byte × Byte) (s : State) : (setCks ab s).rxIdx = s.rxIdx := rfl
@[simp] theorem setCks_rxBuf (ab : Byte × Byte) (s : State) : (setCks ab s).rxBuf = s.rxBuf := rfl
@[simp] theorem setCks_txBuf (ab : Byte × Byte) (s : State) : (setCks ab s).txBuf = s.txBuf := rfl
@[simp] theorem setCks_txLen (ab : Byte × Byte) (s : State) : (setCks ab s).txLen = s.txLen := rfl
@[simp] theorem setCks_expDs (ab : Byte × Byte) (s : State) : (setCks ab s).expDs = s.expDs := rfl
@[simp] theorem setCks_expFd (ab : Byte × Byte) (s : State) : (setCks ab s).expFd = s.expFd := rfl
@[simp] theorem setCks_cfg (ab : Byte × Byte) (s : State) : (setCks ab s).cfg = s.cfg := rfl
@[simp] theorem setCks_stimuli (ab : Byte × Byte) (s : State) : (setCks ab s).stimuli = s.stimuli := rfl
@[simp] theorem setCks_txStream (ab : Byte × Byte) (s : State) : (setCks ab s).txStream = s.txStream := rfl
@[simp] theorem setCks_records (ab : Byte × Byte) (s : State) : (setCks ab s).records = s.records := rfl
@[simp] theorem setCks_errors (ab : Byte × Byte) (s : State) : (setCks ab s).errors = s.errors := rfl
@[simp] theorem setCks_responses (ab : Byte × Byte) (s : State) : (setCks ab s).responses = s.responses := rfl
@[simp] theorem setCks_scratchDraws (ab : Byte × Byte) (s : State) : (setCks ab s).scratchDraws = s.scratchDraws := rfl

/-! ## setHalf -/

@[simp] theorem setHalf_cksA (h : Bool) (s : State) : (setHalf h s).cksA = s.cksA := rfl
@[simp] theorem setHalf_cksB (h : Bool) (s : State) : (setHalf h s).cksB = s.cksB := rfl
@[simp] theorem setHalf_synState (h : Bool) (s : State) : (setHalf h s).synState = s.synState := rfl
@[simp] theorem setHalf_synHalf (h : Bool) (s : State) : (setHalf h s).synHalf = h := rfl
@[simp] theorem setHalf_rxIdx (h : Bool) (s : State) : (setHalf h s).rxIdx = s.rxIdx := rfl
@[simp] theorem setHalf_rxBuf (h : Bool) (s : State) : (setHalf h s).rxBuf = s.rxBuf := rfl
@[simp] theorem setHalf_txBuf (h : Bool) (s : State) : (setHalf h s).txBuf = s.txBuf := rfl
@[simp] theorem setHalf_txLen (h : Bool) (s : State) : (setHalf h s).txLen = s.txLen := rfl
@[simp] theorem setHalf_expDs (h : Bool) (s : State) : (setHalf h s).expDs = s.expDs := rfl
@[simp] theorem setHalf_expFd (h : Bool) (s : State) : (setHalf h s).expFd = s.expFd := rfl
@[simp] theorem setHalf_cfg (h : Bool) (s : State) : (setHalf h s).cfg = s.cfg := rfl
@[simp] theorem setHalf_stimuli (h : Bool) (s : State) : (setHalf h s).stimuli = s.stimuli := rfl
@[simp] theorem setHalf_txStream (h : Bool) (s : State) : (setHalf h s).txStream = s.txStream := rfl
@[simp] theorem setHalf_records (h : Bool) (s : State) : (setHalf h s).records = s.records := rfl
@[simp] theorem setHalf_errors (h : Bool) (s : State) : (setHalf h s).errors = s.errors := rfl
@[simp] theorem setHalf_responses (h : Bool) (s : State) : (setHalf h s).responses = s.responses := rfl
@[simp] theorem setHalf_scratchDraws (h : Bool) (s : State) : (setHalf h s).scratchDraws = s.scratchDraws := rfl

/-! ## setExpDs -/

@[simp] theorem setExpDs_cksA (v : Byte) (s : State) : (setExpDs v s).cksA = s.cksA := rfl
@[simp] theorem setExpDs_cksB (v : Byte) (s : State) : (setExpDs v s).cksB = s.cksB := rfl
@[simp] theorem setExpDs_synState (v : Byte) (s : State) : (setExpDs v s).synState = s.synState := rfl
@[simp] theorem setExpDs_synHalf (v : Byte) (s : State) : (setExpDs v s).synHalf = s.synHalf := rfl
@[simp] theorem setExpDs_rxIdx (v : Byte) (s : State) : (setExpDs v s).rxIdx = s.rxIdx := rfl
@[simp] theorem setExpDs_rxBuf (v : Byte) (s : State) : (setExpDs v s).rxBuf = s.rxBuf := rfl
@[simp] theorem setExpDs_txBuf (v : Byte) (s : State) : (setExpDs v s).txBuf = s.txBuf := rfl
@[simp] theorem setExpDs_txLen (v : Byte) (s : State) : (setExpDs v s).txLen = s.txLen := rfl
@[simp] theorem setExpDs_expDs (v : Byte) (s : State) : (setExpDs v s).expDs = v := rfl
@[simp] theorem setExpDs_expFd (v : Byte) (s : State) : (setExpDs v s).expFd = s.expFd := rfl
@[simp] theorem setExpDs_cfg (v : Byte) (s : State) : (setExpDs v s).cfg = s.cfg := rfl
@[simp] theorem setExpDs_stimuli (v : Byte) (s : State) : (setExpDs v s).stimuli = s.stimuli := rfl
@[simp] theorem setExpDs_txStream (v : Byte) (s : State) : (setExpDs v s).txStream = s.txStream := rfl
@[simp] theorem setExpDs_records (v : Byte) (s : State) : (setExpDs v s).records = s.records := rfl
@[simp] theorem setExpDs_errors (v : Byte) (s : State) : (setExpDs v s).errors = s.errors := rfl
@[simp] theorem setExpDs_responses (v : Byte) (s : State) : (setExpDs v s).responses = s.responses := rfl
@[simp] theorem setExpDs_scratchDraws (v : Byte) (s : State) : (setExpDs v s).scratchDraws = s.scratchDraws := rfl

/-! ## setExpFd -/

@[simp] theorem setExpFd_cksA (v : BitVec 256) (s : State) : (setExpFd v s).cksA = s.cksA := rfl
@[simp] theorem setExpFd_cksB (v : BitVec 256) (s : State) : (setExpFd v s).cksB = s.cksB := rfl
@[simp] theorem setExpFd_synState (v : BitVec 256) (s : State) : (setExpFd v s).synState = s.synState := rfl
@[simp] theorem setExpFd_synHalf (v : BitVec 256) (s : State) : (setExpFd v s).synHalf = s.synHalf := rfl
@[simp] theorem setExpFd_rxIdx (v : BitVec 256) (s : State) : (setExpFd v s).rxIdx = s.rxIdx := rfl
@[simp] theorem setExpFd_rxBuf (v : BitVec 256) (s : State) : (setExpFd v s).rxBuf = s.rxBuf := rfl
@[simp] theorem setExpFd_txBuf (v : BitVec 256) (s : State) : (setExpFd v s).txBuf = s.txBuf := rfl
@[simp] theorem setExpFd_txLen (v : BitVec 256) (s : State) : (setExpFd v s).txLen = s.txLen := rfl
@[simp] theorem setExpFd_expDs (v : BitVec 256) (s : State) : (setExpFd v s).expDs = s.expDs := rfl
@[simp] theorem setExpFd_expFd (v : BitVec 256) (s : State) : (setExpFd v s).expFd = v := rfl
@[simp] theorem setExpFd_cfg (v : BitVec 256) (s : State) : (setExpFd v s).cfg = s.cfg := rfl
@[simp] theorem setExpFd_stimuli (v : BitVec 256) (s : State) : (setExpFd v s).stimuli = s.stimuli := rfl
@[simp] theorem setExpFd_txStream (v : BitVec 256) (s : State) : (setExpFd v s).txStream = s.txStream := rfl
@[simp] theorem setExpFd_records (v : BitVec 256) (s : State) : (setExpFd v s).records = s.records := rfl
@[simp] theorem setExpFd_errors (v : BitVec 256) (s : State) : (setExpFd v s).errors = s.errors := rfl
@[simp] theorem setExpFd_responses (v : BitVec 256) (s : State) : (setExpFd v s).responses = s.responses := rfl
@[simp] theorem setExpFd_scratchDraws (v : BitVec 256) (s : State) : (setExpFd v s).scratchDraws = s.scratchDraws := rfl

/-! ## setCfg -/

@[simp] theorem setCfg_cksA (v : BitVec 8) (s : State) : (setCfg v s).cksA = s.cksA := rfl
@[simp] theorem setCfg_cksB (v : BitVec 8) (s : State) : (setCfg v s).cksB = s.cksB := rfl
@[simp] theorem setCfg_synState (v : BitVec 8) (s : State) : (setCfg v s).synState = s.synState := rfl
@[simp] theorem setCfg_synHalf (v : BitVec 8) (s : State) : (setCfg v s).synHalf = s.synHalf := rfl
@[simp] theorem setCfg_rxIdx (v : BitVec 8) (s : State) : (setCfg v s).rxIdx = s.rxIdx := rfl
@[simp] theorem setCfg_rxBuf (v : BitVec 8) (s : State) : (setCfg v s).rxBuf = s.rxBuf := rfl
@[simp] theorem setCfg_txBuf (v : BitVec 8) (s : State) : (setCfg v s).txBuf = s.txBuf := rfl
@[simp] theorem setCfg_txLen (v : BitVec 8) (s : State) : (setCfg v s).txLen = s.txLen := rfl
@[simp] theorem setCfg_expDs (v : BitVec 8) (s : State) : (setCfg v s).expDs = s.expDs := rfl
@[simp] theorem setCfg_expFd (v : BitVec 8) (s : State) : (setCfg v s).expFd = s.expFd := rfl
@[simp] theorem setCfg_cfg (v : BitVec 8) (s : State) : (setCfg v s).cfg = v := rfl
@[simp] theorem setCfg_stimuli (v : BitVec 8) (s : State) : (setCfg v s).stimuli = s.stimuli := rfl
@[simp] theorem setCfg_txStream (v : BitVec 8) (s : State) : (setCfg v s).txStream = s.txStream := rfl
@[simp] theorem setCfg_records (v : BitVec 8) (s : State) : (setCfg v s).records = s.records := rfl
@[simp] theorem setCfg_errors (v : BitVec 8) (s : State) : (setCfg v s).errors = s.errors := rfl
@[simp] theorem setCfg_responses (v : BitVec 8) (s : State) : (setCfg v s).responses = s.responses := rfl
@[simp] theorem setCfg_scratchDraws (v : BitVec 8) (s : State) : (setCfg v s).scratchDraws = s.scratchDraws := rfl

/-! ## toScanning -/

@[simp] theorem toScanning_cksA (s : State) : (toScanning s).cksA = s.cksA := rfl
@[simp] theorem toScanning_cksB (s : State) : (toScanning s).cksB = s.cksB := rfl
@[simp] theorem toScanning_synState (s : State) : (toScanning s).synState = .scanning := rfl
@[simp] theorem toScanning_synHalf (s : State) : (toScanning s).synHalf = false := rfl
@[simp] theorem toScanning_rxIdx (s : State) : (toScanning s).rxIdx = 0 := rfl
@[simp] theorem toScanning_rxBuf (s : State) : (toScanning s).rxBuf = s.rxBuf := rfl
@[simp] theorem toScanning_txBuf (s : State) : (toScanning s).txBuf = s.txBuf := rfl
@[simp] theorem toScanning_txLen (s : State) : (toScanning s).txLen = s.txLen := rfl
@[simp] theorem toScanning_expDs (s : State) : (toScanning s).expDs = s.expDs := rfl
@[simp] theorem toScanning_expFd (s : State) : (toScanning s).expFd = s.expFd := rfl
@[simp] theorem toScanning_cfg (s : State) : (toScanning s).cfg = s.cfg := rfl
@[simp] theorem toScanning_stimuli (s : State) : (toScanning s).stimuli = s.stimuli := rfl
@[simp] theorem toScanning_txStream (s : State) : (toScanning s).txStream = s.txStream := rfl
@[simp] theorem toScanning_records (s : State) : (toScanning s).records = s.records := rfl
@[simp] theorem toScanning_errors (s : State) : (toScanning s).errors = s.errors := rfl
@[simp] theorem toScanning_responses (s : State) : (toScanning s).responses = s.responses := rfl
@[simp] theorem toScanning_scratchDraws (s : State) : (toScanning s).scratchDraws = s.scratchDraws := rfl

/-! ## enterSynced -/

@[simp] theorem enterSynced_cksA (s : State) : (enterSynced s).cksA = s.cksA := rfl
@[simp] theorem enterSynced_cksB (s : State) : (enterSynced s).cksB = s.cksB := rfl
@[simp] theorem enterSynced_synState (s : State) : (enterSynced s).synState = .synced := rfl
@[simp] theorem enterSynced_synHalf (s : State) : (enterSynced s).synHalf = false := rfl
@[simp] theorem enterSynced_rxIdx (s : State) : (enterSynced s).rxIdx = 2 := rfl
@[simp] theorem enterSynced_rxBuf (s : State) : (enterSynced s).rxBuf = memWrite (memWrite s.rxBuf 0 Config.sync0) 1 Config.sync1 := rfl
@[simp] theorem enterSynced_txBuf (s : State) : (enterSynced s).txBuf = s.txBuf := rfl
@[simp] theorem enterSynced_txLen (s : State) : (enterSynced s).txLen = s.txLen := rfl
@[simp] theorem enterSynced_expDs (s : State) : (enterSynced s).expDs = s.expDs := rfl
@[simp] theorem enterSynced_expFd (s : State) : (enterSynced s).expFd = s.expFd := rfl
@[simp] theorem enterSynced_cfg (s : State) : (enterSynced s).cfg = s.cfg := rfl
@[simp] theorem enterSynced_stimuli (s : State) : (enterSynced s).stimuli = s.stimuli := rfl
@[simp] theorem enterSynced_txStream (s : State) : (enterSynced s).txStream = s.txStream := rfl
@[simp] theorem enterSynced_records (s : State) : (enterSynced s).records = s.records := rfl
@[simp] theorem enterSynced_errors (s : State) : (enterSynced s).errors = s.errors := rfl
@[simp] theorem enterSynced_responses (s : State) : (enterSynced s).responses = s.responses := rfl
@[simp] theorem enterSynced_scratchDraws (s : State) : (enterSynced s).scratchDraws = s.scratchDraws := rfl

/-! ## storeRx -/

@[simp] theorem storeRx_cksA (b : Byte) (s : State) : (storeRx b s).cksA = s.cksA := rfl
@[simp] theorem storeRx_cksB (b : Byte) (s : State) : (storeRx b s).cksB = s.cksB := rfl
@[simp] theorem storeRx_synState (b : Byte) (s : State) : (storeRx b s).synState = s.synState := rfl
@[simp] theorem storeRx_synHalf (b : Byte) (s : State) : (storeRx b s).synHalf = s.synHalf := rfl
@[simp] theorem storeRx_rxIdx (b : Byte) (s : State) : (storeRx b s).rxIdx = s.rxIdx + 1 := rfl
@[simp] theorem storeRx_rxBuf (b : Byte) (s : State) : (storeRx b s).rxBuf = memWrite s.rxBuf s.rxIdx.toNat b := rfl
@[simp] theorem storeRx_txBuf (b : Byte) (s : State) : (storeRx b s).txBuf = s.txBuf := rfl
@[simp] theorem storeRx_txLen (b : Byte) (s : State) : (storeRx b s).txLen = s.txLen := rfl
@[simp] theorem storeRx_expDs (b : Byte) (s : State) : (storeRx b s).expDs = s.expDs := rfl
@[simp] theorem storeRx_expFd (b : Byte) (s : State) : (storeRx b s).expFd = s.expFd := rfl
@[simp] theorem storeRx_cfg (b : Byte) (s : State) : (storeRx b s).cfg = s.cfg := rfl
@[simp] theorem storeRx_stimuli (b : Byte) (s : State) : (storeRx b s).stimuli = s.stimuli := rfl
@[simp] theorem storeRx_txStream (b : Byte) (s : State) : (storeRx b s).txStream = s.txStream := rfl
@[simp] theorem storeRx_records (b : Byte) (s : State) : (storeRx b s).records = s.records := rfl
@[simp] theorem storeRx_errors (b : Byte) (s : State) : (storeRx b s).errors = s.errors := rfl
@[simp] theorem storeRx_responses (b : Byte) (s : State) : (storeRx b s).responses = s.responses := rfl
@[simp] theorem storeRx_scratchDraws (b : Byte) (s : State) : (storeRx b s).scratchDraws = s.scratchDraws := rfl

/-! ## dropScratch -/

@[simp] theorem dropScratch_cksA (s : State) : (dropScratch s).cksA = s.cksA := rfl
@[simp] theorem dropScratch_cksB (s : State) : (dropScratch s).cksB = s.cksB := rfl
@[simp] theorem dropScratch_synState (s : State) : (dropScratch s).synState = s.synState := rfl
@[simp] theorem dropScratch_synHalf (s : State) : (dropScratch s).synHalf = s.synHalf := rfl
@[simp] theorem dropScratch_rxIdx (s : State) : (dropScratch s).rxIdx = s.rxIdx := rfl
@[simp] theorem dropScratch_rxBuf (s : State) : (dropScratch s).rxBuf = s.rxBuf := rfl
@[simp] theorem dropScratch_txBuf (s : State) : (dropScratch s).txBuf = scratchCells s.scratchDraws := rfl
@[simp] theorem dropScratch_txLen (s : State) : (dropScratch s).txLen = Config.scratchLen s.scratchDraws := rfl
@[simp] theorem dropScratch_expDs (s : State) : (dropScratch s).expDs = s.expDs := rfl
@[simp] theorem dropScratch_expFd (s : State) : (dropScratch s).expFd = s.expFd := rfl
@[simp] theorem dropScratch_cfg (s : State) : (dropScratch s).cfg = s.cfg := rfl
@[simp] theorem dropScratch_stimuli (s : State) : (dropScratch s).stimuli = s.stimuli := rfl
@[simp] theorem dropScratch_txStream (s : State) : (dropScratch s).txStream = s.txStream := rfl
@[simp] theorem dropScratch_records (s : State) : (dropScratch s).records = s.records := rfl
@[simp] theorem dropScratch_errors (s : State) : (dropScratch s).errors = s.errors := rfl
@[simp] theorem dropScratch_responses (s : State) : (dropScratch s).responses = s.responses := rfl
@[simp] theorem dropScratch_scratchDraws (s : State) : (dropScratch s).scratchDraws = s.scratchDraws + 1 := rfl

/-! ## emitTx -/

@[simp] theorem emitTx_cksA (f : List Byte) (s : State) : (emitTx f s).cksA = s.cksA := rfl
@[simp] theorem emitTx_cksB (f : List Byte) (s : State) : (emitTx f s).cksB = s.cksB := rfl
@[simp] theorem emitTx_synState (f : List Byte) (s : State) : (emitTx f s).synState = s.synState := rfl
@[simp] theorem emitTx_synHalf (f : List Byte) (s : State) : (emitTx f s).synHalf = s.synHalf := rfl
@[simp] theorem emitTx_rxIdx (f : List Byte) (s : State) : (emitTx f s).rxIdx = s.rxIdx := rfl
@[simp] theorem emitTx_rxBuf (f : List Byte) (s : State) : (emitTx f s).rxBuf = s.rxBuf := rfl
@[simp] theorem emitTx_txBuf (f : List Byte) (s : State) : (emitTx f s).txBuf = s.txBuf := rfl
@[simp] theorem emitTx_txLen (f : List Byte) (s : State) : (emitTx f s).txLen = s.txLen := rfl
@[simp] theorem emitTx_expDs (f : List Byte) (s : State) : (emitTx f s).expDs = s.expDs := rfl
@[simp] theorem emitTx_expFd (f : List Byte) (s : State) : (emitTx f s).expFd = s.expFd := rfl
@[simp] theorem emitTx_cfg (f : List Byte) (s : State) : (emitTx f s).cfg = s.cfg := rfl
@[simp] theorem emitTx_stimuli (f : List Byte) (s : State) : (emitTx f s).stimuli = s.stimuli := rfl
@[simp] theorem emitTx_txStream (f : List Byte) (s : State) : (emitTx f s).txStream = s.txStream ++ f := rfl
@[simp] theorem emitTx_records (f : List Byte) (s : State) : (emitTx f s).records = s.records := rfl
@[simp] theorem emitTx_errors (f : List Byte) (s : State) : (emitTx f s).errors = s.errors := rfl
@[simp] theorem emitTx_responses (f : List Byte) (s : State) : (emitTx f s).responses = s.responses := rfl
@[simp] theorem emitTx_scratchDraws (f : List Byte) (s : State) : (emitTx f s).scratchDraws = s.scratchDraws := rfl

/-! ## emitRecord -/

@[simp] theorem emitRecord_cksA (r : Record) (s : State) : (emitRecord r s).cksA = s.cksA := rfl
@[simp] theorem emitRecord_cksB (r : Record) (s : State) : (emitRecord r s).cksB = s.cksB := rfl
@[simp] theorem emitRecord_synState (r : Record) (s : State) : (emitRecord r s).synState = s.synState := rfl
@[simp] theorem emitRecord_synHalf (r : Record) (s : State) : (emitRecord r s).synHalf = s.synHalf := rfl
@[simp] theorem emitRecord_rxIdx (r : Record) (s : State) : (emitRecord r s).rxIdx = s.rxIdx := rfl
@[simp] theorem emitRecord_rxBuf (r : Record) (s : State) : (emitRecord r s).rxBuf = s.rxBuf := rfl
@[simp] theorem emitRecord_txBuf (r : Record) (s : State) : (emitRecord r s).txBuf = s.txBuf := rfl
@[simp] theorem emitRecord_txLen (r : Record) (s : State) : (emitRecord r s).txLen = s.txLen := rfl
@[simp] theorem emitRecord_expDs (r : Record) (s : State) : (emitRecord r s).expDs = s.expDs := rfl
@[simp] theorem emitRecord_expFd (r : Record) (s : State) : (emitRecord r s).expFd = s.expFd := rfl
@[simp] theorem emitRecord_cfg (r : Record) (s : State) : (emitRecord r s).cfg = s.cfg := rfl
@[simp] theorem emitRecord_stimuli (r : Record) (s : State) : (emitRecord r s).stimuli = s.stimuli := rfl
@[simp] theorem emitRecord_txStream (r : Record) (s : State) : (emitRecord r s).txStream = s.txStream := rfl
@[simp] theorem emitRecord_records (r : Record) (s : State) : (emitRecord r s).records = s.records ++ [r] := rfl
@[simp] theorem emitRecord_errors (r : Record) (s : State) : (emitRecord r s).errors = s.errors := rfl
@[simp] theorem emitRecord_responses (r : Record) (s : State) : (emitRecord r s).responses = s.responses := rfl
@[simp] theorem emitRecord_scratchDraws (r : Record) (s : State) : (emitRecord r s).scratchDraws = s.scratchDraws := rfl

/-! ## respond -/

@[simp] theorem respond_cksA (r : Response) (s : State) : (respond r s).cksA = s.cksA := rfl
@[simp] theorem respond_cksB (r : Response) (s : State) : (respond r s).cksB = s.cksB := rfl
@[simp] theorem respond_synState (r : Response) (s : State) : (respond r s).synState = s.synState := rfl
@[simp] theorem respond_synHalf (r : Response) (s : State) : (respond r s).synHalf = s.synHalf := rfl
@[simp] theorem respond_rxIdx (r : Response) (s : State) : (respond r s).rxIdx = s.rxIdx := rfl
@[simp] theorem respond_rxBuf (r : Response) (s : State) : (respond r s).rxBuf = s.rxBuf := rfl
@[simp] theorem respond_txBuf (r : Response) (s : State) : (respond r s).txBuf = s.txBuf := rfl
@[simp] theorem respond_txLen (r : Response) (s : State) : (respond r s).txLen = s.txLen := rfl
@[simp] theorem respond_expDs (r : Response) (s : State) : (respond r s).expDs = s.expDs := rfl
@[simp] theorem respond_expFd (r : Response) (s : State) : (respond r s).expFd = s.expFd := rfl
@[simp] theorem respond_cfg (r : Response) (s : State) : (respond r s).cfg = s.cfg := rfl
@[simp] theorem respond_stimuli (r : Response) (s : State) : (respond r s).stimuli = s.stimuli := rfl
@[simp] theorem respond_txStream (r : Response) (s : State) : (respond r s).txStream = s.txStream := rfl
@[simp] theorem respond_records (r : Response) (s : State) : (respond r s).records = s.records := rfl
@[simp] theorem respond_errors (r : Response) (s : State) : (respond r s).errors = s.errors := rfl
@[simp] theorem respond_responses (r : Response) (s : State) : (respond r s).responses = s.responses ++ [r] := rfl
@[simp] theorem respond_scratchDraws (r : Response) (s : State) : (respond r s).scratchDraws = s.scratchDraws := rfl

/-! ## raiseError -/

@[simp] theorem raiseError_cksA (e : ErrorEvent) (s : State) : (raiseError e s).cksA = s.cksA := rfl
@[simp] theorem raiseError_cksB (e : ErrorEvent) (s : State) : (raiseError e s).cksB = s.cksB := rfl
@[simp] theorem raiseError_synState (e : ErrorEvent) (s : State) : (raiseError e s).synState = s.synState := rfl
@[simp] theorem raiseError_synHalf (e : ErrorEvent) (s : State) : (raiseError e s).synHalf = s.synHalf := rfl
@[simp] theorem raiseError_rxIdx (e : ErrorEvent) (s : State) : (raiseError e s).rxIdx = s.rxIdx := rfl
@[simp] theorem raiseError_rxBuf (e : ErrorEvent) (s : State) : (raiseError e s).rxBuf = s.rxBuf := rfl
@[simp] theorem raiseError_txBuf (e : ErrorEvent) (s : State) : (raiseError e s).txBuf = s.txBuf := rfl
@[simp] theorem raiseError_txLen (e : ErrorEvent) (s : State) : (raiseError e s).txLen = s.txLen := rfl
@[simp] theorem raiseError_expDs (e : ErrorEvent) (s : State) : (raiseError e s).expDs = s.expDs := rfl
@[simp] theorem raiseError_expFd (e : ErrorEvent) (s : State) : (raiseError e s).expFd = s.expFd := rfl
@[simp] theorem raiseError_cfg (e : ErrorEvent) (s : State) : (raiseError e s).cfg = s.cfg := rfl
@[simp] theorem raiseError_stimuli (e : ErrorEvent) (s : State) : (raiseError e s).stimuli = s.stimuli := rfl
@[simp] theorem raiseError_txStream (e : ErrorEvent) (s : State) : (raiseError e s).txStream = s.txStream := rfl
@[simp] theorem raiseError_records (e : ErrorEvent) (s : State) : (raiseError e s).records = s.records := rfl
@[simp] theorem raiseError_errors (e : ErrorEvent) (s : State) : (raiseError e s).errors = s.errors ++ [e] := rfl
@[simp] theorem raiseError_responses (e : ErrorEvent) (s : State) : (raiseError e s).responses = s.responses := rfl
@[simp] theorem raiseError_scratchDraws (e : ErrorEvent) (s : State) : (raiseError e s).scratchDraws = s.scratchDraws := rfl

/-! ## pushStimulus -/

@[simp] theorem pushStimulus_cksA (x : Stimulus) (s : State) : (pushStimulus x s).cksA = s.cksA := rfl
@[simp] theorem pushStimulus_cksB (x : Stimulus) (s : State) : (pushStimulus x s).cksB = s.cksB := rfl
@[simp] theorem pushStimulus_synState (x : Stimulus) (s : State) : (pushStimulus x s).synState = s.synState := rfl
@[simp] theorem pushStimulus_synHalf (x : Stimulus) (s : State) : (pushStimulus x s).synHalf = s.synHalf := rfl
@[simp] theorem pushStimulus_rxIdx (x : Stimulus) (s : State) : (pushStimulus x s).rxIdx = s.rxIdx := rfl
@[simp] theorem pushStimulus_rxBuf (x : Stimulus) (s : State) : (pushStimulus x s).rxBuf = s.rxBuf := rfl
@[simp] theorem pushStimulus_txBuf (x : Stimulus) (s : State) : (pushStimulus x s).txBuf = s.txBuf := rfl
@[simp] theorem pushStimulus_txLen (x : Stimulus) (s : State) : (pushStimulus x s).txLen = s.txLen := rfl
@[simp] theorem pushStimulus_expDs (x : Stimulus) (s : State) : (pushStimulus x s).expDs = s.expDs := rfl
@[simp] theorem pushStimulus_expFd (x : Stimulus) (s : State) : (pushStimulus x s).expFd = s.expFd := rfl
@[simp] theorem pushStimulus_cfg (x : Stimulus) (s : State) : (pushStimulus x s).cfg = s.cfg := rfl
@[simp] theorem pushStimulus_stimuli (x : Stimulus) (s : State) : (pushStimulus x s).stimuli = x :: s.stimuli := rfl
@[simp] theorem pushStimulus_txStream (x : Stimulus) (s : State) : (pushStimulus x s).txStream = s.txStream := rfl
@[simp] theorem pushStimulus_records (x : Stimulus) (s : State) : (pushStimulus x s).records = s.records := rfl
@[simp] theorem pushStimulus_errors (x : Stimulus) (s : State) : (pushStimulus x s).errors = s.errors := rfl
@[simp] theorem pushStimulus_responses (x : Stimulus) (s : State) : (pushStimulus x s).responses = s.responses := rfl
@[simp] theorem pushStimulus_scratchDraws (x : Stimulus) (s : State) : (pushStimulus x s).scratchDraws = s.scratchDraws := rfl

/-! ## resetEvent -/

@[simp] theorem resetEvent_cksA (s : State) : (resetEvent s).cksA = 0 := rfl
@[simp] theorem resetEvent_cksB (s : State) : (resetEvent s).cksB = 0 := rfl
@[simp] theorem resetEvent_synState (s : State) : (resetEvent s).synState = .scanning := rfl
@[simp] theorem resetEvent_synHalf (s : State) : (resetEvent s).synHalf = false := rfl
@[simp] theorem resetEvent_rxIdx (s : State) : (resetEvent s).rxIdx = 0 := rfl
@[simp] theorem resetEvent_rxBuf (s : State) : (resetEvent s).rxBuf = [] := rfl
@[simp] theorem resetEvent_txBuf (s : State) : (resetEvent s).txBuf = [] := rfl
@[simp] theorem resetEvent_txLen (s : State) : (resetEvent s).txLen = 0 := rfl
@[simp] theorem resetEvent_expDs (s : State) : (resetEvent s).expDs = 0 := rfl
@[simp] theorem resetEvent_expFd (s : State) : (resetEvent s).expFd = 0 := rfl
@[simp] theorem resetEvent_cfg (s : State) : (resetEvent s).cfg = 0 := rfl
@[simp] theorem resetEvent_stimuli (s : State) : (resetEvent s).stimuli = s.stimuli := rfl
@[simp] theorem resetEvent_txStream (s : State) : (resetEvent s).txStream = s.txStream := rfl
@[simp] theorem resetEvent_records (s : State) : (resetEvent s).records = s.records := rfl
@[simp] theorem resetEvent_errors (s : State) : (resetEvent s).errors = s.errors := rfl
@[simp] theorem resetEvent_responses (s : State) : (resetEvent s).responses = s.responses := rfl
@[simp] theorem resetEvent_scratchDraws (s : State) : (resetEvent s).scratchDraws = s.scratchDraws := rfl

end Sys2Proof.Machine
end

