-- ==== Sys2Proof/Laws/Memory.lean ====
section
/-! SUPPORT. The laws of the byte buffers: a read after a write, and that every operation keeps the canonical form and the
buffer's bound. -/

namespace Sys2Proof.Machine

@[simp] theorem memRead_memWrite_same (m : Memory) (a : Nat) (b : Byte) : memRead (memWrite m a b) a = some b := by
  induction m with
  | nil => simp [memWrite, memRead]
  | cons c rest ih =>
    obtain ⟨k, v⟩ := c
    by_cases h : a < k
    · simp [memWrite, memRead, h]
    · by_cases he : a = k
      · simp [memWrite, memRead, he]
      · simp [memWrite, memRead, h, he, ih, Ne.symm he]

theorem memRead_memWrite_other (m : Memory) {a c : Nat} (b : Byte) (h : c ≠ a) :
    memRead (memWrite m a b) c = memRead m c := by
  induction m with
  | nil => simp [memWrite, memRead, Ne.symm h]
  | cons cell rest ih =>
    obtain ⟨k, v⟩ := cell
    by_cases hl : a < k
    · simp [memWrite, memRead, hl, Ne.symm h]
    · by_cases he : a = k
      · subst he
        simp [memWrite, memRead, Ne.symm h]
      · simp [memWrite, memRead, hl, he, ih]

theorem memWrite_keys_mem (m : Memory) (a : Nat) (b : Byte) {x : Nat}
    (hx : x ∈ (memWrite m a b).map Prod.fst) : x = a ∨ x ∈ m.map Prod.fst := by
  induction m with
  | nil => simp_all [memWrite]
  | cons cell rest ih =>
    obtain ⟨k, v⟩ := cell
    by_cases hl : a < k
    · simpa [memWrite, hl] using hx
    · by_cases he : a = k
      · subst he
        simp only [memWrite, Nat.lt_irrefl, if_false, if_true, List.map_cons, List.mem_cons] at hx
        rcases hx with hx | hx
        · exact .inl hx
        · exact .inr (by simp only [List.map_cons, List.mem_cons]; exact .inr hx)
      · simp only [memWrite, hl, he, if_false, List.map_cons, List.mem_cons] at hx
        rcases hx with hx | hx
        · exact .inr (by simp [hx])
        · rcases ih hx with h | h
          · exact .inl h
          · exact .inr (by simp only [List.map_cons, List.mem_cons]; exact .inr h)

theorem memWrite_wf (m : Memory) (a : Nat) (b : Byte) (h : Memory.wf m) : Memory.wf (memWrite m a b) := by
  induction m with
  | nil => simp [memWrite, Memory.wf]
  | cons cell rest ih =>
    obtain ⟨k, v⟩ := cell
    simp only [Memory.wf, List.map_cons, List.pairwise_cons] at h ih
    obtain ⟨hk, hr⟩ := h
    by_cases hl : a < k
    · simp only [memWrite, hl, if_true, Memory.wf, List.map_cons, List.pairwise_cons, List.mem_cons]
      refine ⟨?_, hk, hr⟩
      rintro x (rfl | hx)
      · exact hl
      · exact Nat.lt_trans hl (hk x hx)
    · by_cases he : a = k
      · subst he
        simp only [memWrite, Nat.lt_irrefl, if_false, if_true, Memory.wf, List.map_cons, List.pairwise_cons]
        exact ⟨hk, hr⟩
      · simp only [memWrite, hl, he, if_false, Memory.wf, List.map_cons, List.pairwise_cons]
        refine ⟨fun x hx => ?_, ih hr⟩
        rcases memWrite_keys_mem rest a b hx with rfl | hx
        · omega
        · exact hk x hx

theorem memWrite_within (m : Memory) (a : Nat) (b : Byte) (h : Memory.within m) (ha : a < Config.maxFrame) :
    Memory.within (memWrite m a b) := by
  intro x hx
  rcases memWrite_keys_mem m a b hx with rfl | hx
  · exact ha
  · exact h x hx

theorem scratchCells_keys (draw : Nat) : (scratchCells draw).map Prod.fst = List.range Config.maxFrame := by
  simp [scratchCells, Function.comp_def]

theorem scratchCells_wf (draw : Nat) : Memory.wf (scratchCells draw) := by
  simpa [Memory.wf, scratchCells_keys] using List.pairwise_lt_range

theorem scratchCells_within (draw : Nat) : Memory.within (scratchCells draw) := by
  intro x hx
  simpa [scratchCells_keys] using hx

/-- A span is read exactly when each of its cells has a value, and then it is those values. -/
theorem memSpan_eq_some (m : Memory) (n : Nat) : ∀ (a : Nat) (bs : List Byte),
    memSpan m a n = some bs ↔ bs.length = n ∧ ∀ i < n, memRead m (a + i) = bs[i]? := by
  induction n with
  | zero =>
    intro a bs
    cases bs <;> simp [memSpan]
  | succ n ih =>
    intro a bs
    constructor
    · intro h
      simp only [memSpan] at h
      split at h
      · rename_i b rest hb hrest
        obtain ⟨hl, hr⟩ := (ih _ _).1 hrest
        cases h
        refine ⟨by simp [hl], fun i hi => ?_⟩
        cases i with
        | zero => simpa using hb
        | succ i => simpa [Nat.add_assoc, Nat.add_comm 1] using hr i (by omega)
      · cases h
    · rintro ⟨hl, hr⟩
      cases bs with
      | nil => simp at hl
      | cons b rest =>
        have hb : memRead m a = some b := by simpa using hr 0 (by omega)
        have hrest : memSpan m (a + 1) n = some rest :=
          (ih _ _).2 ⟨by simpa using hl, fun i hi => by
            simpa [Nat.add_assoc, Nat.add_comm 1] using hr (i + 1) (by omega)⟩
        simp [memSpan, hb, hrest]

theorem memSpan_isSome (m : Memory) (n : Nat) : ∀ (a : Nat), (∀ i < n, (memRead m (a + i)).isSome) →
    ∃ bs, memSpan m a n = some bs := by
  induction n with
  | zero => exact fun a _ => ⟨[], rfl⟩
  | succ n ih =>
    intro a h
    obtain ⟨b, hb⟩ := Option.isSome_iff_exists.1 (by simpa using h 0 (by omega))
    obtain ⟨bs, hbs⟩ := ih (a + 1) fun i hi => by
      simpa [Nat.add_assoc, Nat.add_comm 1] using h (i + 1) (by omega)
    exact ⟨b :: bs, by simp [memSpan, hb, hbs]⟩

end Sys2Proof.Machine
end

