-- ==== Sys2Proof/Laws/Ops.lean ====
section
/-! SUPPORT. For each shared operation, once, everything it can do; and what one operation of the engine can do to the state. -/

namespace Sys2Proof.Machine

theorem fetch_eq_some {s t : State} {x : Stimulus} :
    fetch s = some (x, t) ↔ ∃ rest, s.stimuli = x :: rest ∧ t = { s with stimuli := rest } := by
  unfold fetch
  split
  · rename_i h
    simp [h]
  · rename_i y rest h
    simp only [h, Option.some.injEq, Prod.mk.injEq, List.cons.injEq]
    constructor
    · rintro ⟨rfl, rfl⟩
      exact ⟨rest, ⟨rfl, rfl⟩, rfl⟩
    · rintro ⟨r, ⟨rfl, rfl⟩, rfl⟩
      exact ⟨rfl, rfl⟩

/-- The marker matcher: a noise byte, a candidate, a match, or a failed pair (42_synchronizer.md R127 to R130). -/
theorem matchMarker_cases (b : Byte) (s : State) :
    (s.synHalf = false ∧ b ≠ Config.sync0 ∧ matchMarker b s = s) ∨
    (s.synHalf = false ∧ b = Config.sync0 ∧ matchMarker b s = setHalf true s) ∨
    (s.synHalf = true ∧ b = Config.sync1 ∧ matchMarker b s = enterSynced s) ∨
    (s.synHalf = true ∧ b ≠ Config.sync1 ∧ matchMarker b s = setHalf false s) := by
  unfold matchMarker
  cases hs : s.synHalf
  · by_cases hb : b = Config.sync0 <;> simp [hb]
  · by_cases hb : b = Config.sync1 <;> simp [hb]

theorem postResult_cases (r : DecodeResult) (s : State) :
    (∃ rec, r = .ok rec ∧ postResult r s = emitRecord rec s) ∨
    (∃ e, r = .err e ∧ postResult r s = raiseError e s) := by
  cases r with
  | ok rec => exact .inl ⟨rec, rfl, rfl⟩
  | err e => exact .inr ⟨e, rfl, rfl⟩

/-- A build either emits a whole frame or raises one refusal (46_builder.md R196). -/
theorem runBuild_cases (ds : Byte) (fields : List (Byte × List Byte)) (s : State) :
    (∃ f, build ds fields = .ok f ∧ runBuild ds fields s = emitTx f (dropScratch s)) ∨
    (∃ e, build ds fields = .refused e ∧ runBuild ds fields s = raiseError e s) := by
  unfold runBuild
  cases h : build ds fields with
  | ok f => exact .inl ⟨f, rfl, rfl⟩
  | refused e => exact .inr ⟨e, rfl, rfl⟩

/-- The outcomes of `build`, in the order its tests are made (46_builder.md R199). -/
theorem build_cases (ds : Byte) (fields : List (Byte × List Byte)) :
    (ds ∉ Config.dsEnum ∧ build ds fields = .refused (.badDescriptorSet ds)) ∨
    (ds ∈ Config.dsEnum ∧ ∃ i, firstTooLong 0 fields = some i ∧ build ds fields = .refused (.fieldTooLong i)) ∨
    (ds ∈ Config.dsEnum ∧ firstTooLong 0 fields = none ∧ Config.maxPayload < payloadLength fields ∧
      build ds fields = .refused (.payloadTooLong (payloadLength fields))) ∨
    (ds ∈ Config.dsEnum ∧ firstTooLong 0 fields = none ∧ payloadLength fields ≤ Config.maxPayload ∧
      build ds fields = .ok (withChecksum (coveredBytes ds fields))) := by
  unfold build
  by_cases hds : ds ∈ Config.dsEnum
  · simp only [hds, not_true_eq_false, if_false, false_and, false_or, true_and]
    cases hf : firstTooLong 0 fields with
    | some i => exact .inl ⟨i, rfl, rfl⟩
    | none =>
      by_cases hn : Config.maxPayload < payloadLength fields
      · simp [hn]
      · simp [hn, Nat.le_of_not_lt hn]
  · simp [hds]

theorem firstTooLong_eq_none {i : Nat} {fields : List (Byte × List Byte)} :
    firstTooLong i fields = none ↔ ∀ f ∈ fields, f.2.length ≤ Config.maxFieldData := by
  induction fields generalizing i with
  | nil => simp [firstTooLong]
  | cons f rest ih =>
    obtain ⟨fd, p⟩ := f
    by_cases h : Config.maxFieldData < p.length
    · simp [firstTooLong, h]
    · simp [firstTooLong, h, ih, Nat.le_of_not_lt h]

/-- A frame completes to its one output, unless a cell of it has no value (43_collector.md R142). -/
theorem completeFrame_next {s t : State} (h : completeFrame s = .next t) :
    ∃ buf, rxFrame s = some buf ∧ t = postResult (decodeFrame buf s.expDs s.expFd (unitsG s)) (toScanning s) := by
  unfold completeFrame at h
  split at h
  · cases h
  · rename_i buf hb
    cases h
    exact ⟨buf, hb, rfl⟩

/-- The test of R142 for completion, on the state after the byte is stored. -/
def FrameDone (s : State) : Prop := 4 ≤ s.rxIdx.toNat ∧ ∃ n, rxRead s 3 = some n ∧ s.rxIdx.toNat = n.toNat + 6

theorem afterStore_next {s t : State} (h : afterStore s = .next t) :
    (t = s ∧ ¬ FrameDone s) ∨
    (FrameDone s ∧ ∃ buf, rxFrame s = some buf ∧
      t = postResult (decodeFrame buf s.expDs s.expFd (unitsG s)) (toScanning s)) := by
  unfold afterStore at h
  split at h
  · rename_i hlt
    cases h
    exact .inl ⟨rfl, fun hd => by have := hd.1; omega⟩
  · rename_i hge
    split at h
    · cases h
    · rename_i n hn
      split at h
      · rename_i hdone
        exact .inr ⟨⟨by omega, n, hn, hdone⟩, completeFrame_next h⟩
      · rename_i hnot
        cases h
        refine .inl ⟨rfl, ?_⟩
        rintro ⟨_, m, hm, hd⟩
        rw [hn, Option.some.injEq] at hm
        exact hnot (hm ▸ hd)

/-- What `RXC.BYTE` does when it answers a next state (43_collector.md R142). -/
theorem execRxcByte_next {b : Byte} {s t : State} (h : execRxcByte b s = .next t) :
    s.rxIdx.toNat < Config.maxFrame ∧
    ((t = storeRx b s ∧ ¬ FrameDone (storeRx b s)) ∨
     (FrameDone (storeRx b s) ∧ ∃ buf, rxFrame (storeRx b s) = some buf ∧
       t = postResult (decodeFrame buf s.expDs s.expFd (unitsG s)) (toScanning (storeRx b s)))) := by
  unfold execRxcByte at h
  split at h
  · rename_i hlt
    exact ⟨hlt, by simpa [unitsG] using afterStore_next h⟩
  · cases h

/-- Every way an operation can change the state. -/
inductive Effect (s : State) : State → Prop
  | same : Effect s s
  | checksum (ab : Byte × Byte) : Effect s (setCks ab s)
  | span (ab : Byte × Byte) (r : Response) : Effect s (respond r (setCks ab s))
  | response (r : Response) : Effect s (respond r s)
  | scanning : Effect s (toScanning s)
  | half (h : Bool) : Effect s (setHalf h s)
  | marker (h : s.synHalf = true) : Effect s (enterSynced s)
  | timeout : Effect s (raiseError .syncTimeout (setHalf false s))
  | truncated : Effect s (raiseError .truncatedFrame (toScanning s))
  | config (reg : Reg) (v : BitVec 256) : Effect s (writeReg reg v s)
  | build (ds : Byte) (fields : List (Byte × List Byte)) : Effect s (runBuild ds fields s)
  | store (b : Byte) (h : s.rxIdx.toNat < Config.maxFrame) (hd : ¬ FrameDone (storeRx b s)) : Effect s (storeRx b s)
  | complete (b : Byte) (buf : List Byte) (h : s.rxIdx.toNat < Config.maxFrame) (hd : FrameDone (storeRx b s))
      (hb : rxFrame (storeRx b s) = some buf) :
      Effect s (postResult (decodeFrame buf s.expDs s.expFd (unitsG s)) (toScanning (storeRx b s)))

theorem matchMarker_effect (b : Byte) (s : State) : Effect s (matchMarker b s) := by
  rcases matchMarker_cases b s with ⟨-, -, h⟩ | ⟨-, -, h⟩ | ⟨hs, -, h⟩ | ⟨-, -, h⟩ <;> rw [h]
  · exact .same
  · exact .half true
  · exact .marker hs
  · exact .half false

/-- An operation that answers a next state has one of the effects above. -/
theorem exec_effect {i : Instr} {s t : State} (h : exec i s = .next t) : Effect s t := by
  cases i with
  | cksClr => cases h; exact .checksum _
  | cksUpd b => cases h; exact .checksum _
  | cksRd => cases h; exact .response _
  | cksSpan bs => cases h; exact .span _ _
  | synRearm => cases h; exact .scanning
  | decDecode buf ds fds => cases h; exact .response _
  | bldBuild ds fields => cases h; exact .build _ _
  | cfgWr reg v => cases h; exact .config _ _
  | cfgRd reg => cases h; exact .response _
  | reserved9 => cases h; exact .response _
  | reservedA => cases h; exact .response _
  | reservedB => cases h; exact .response _
  | reservedC => cases h; exact .response _
  | reservedD => cases h; exact .response _
  | reservedE => cases h; exact .response _
  | reservedF => cases h; exact .response _
  | synByte b => cases h; exact matchMarker_effect b s
  | rxcByte b =>
    obtain ⟨hlt, ⟨rfl, hd⟩ | ⟨hd, buf, hb, rfl⟩⟩ := execRxcByte_next h
    · exact .store b hlt hd
    · exact .complete b buf hlt hd hb
  | synDeadline => cases h; exact .timeout
  | rxcDeadline => cases h; exact .truncated
  | extAccel d => cases h; exact .response _
  | extGpstime d => cases h; exact .response _
  | extRaw ds fd d => cases h; exact .response _
  | cmdIdle => cases h; exact .build _ _
  | cmdResume => cases h; exact .build _ _
  | cmdPpsSource p => cases h; exact .build _ _
  | cmdPpsPulse p => cases h; exact .build _ _
  | cmdGnssOffset x y z => cases h; exact .build _ _
  | cmdMsgFormat tds tfd dec => cases h; exact .build _ _
  | cmdStreamEn p => cases h; exact .build _ _
  | cmdPoll p => cases h; exact .build _ _

/-- Only `RXC.BYTE` can answer anything but a next state. -/
theorem exec_next_or_rxcByte (i : Instr) (s : State) : (∃ t, exec i s = .next t) ∨ ∃ b, i = .rxcByte b := by
  cases i with
  | rxcByte b => exact .inr ⟨b, rfl⟩
  | _ => exact .inl ⟨_, rfl⟩

/-- What a step does when it answers a next state: it runs the operation its stimulus selects, or handles the `reset` event or a
field with no shape. -/
theorem step_next {s t : State} (h : step s = .next t) :
    ∃ x rest, s.stimuli = x :: rest ∧
      ((∃ i, decode s.synState x = .ok i ∧ exec i { s with stimuli := rest } = .next t) ∨
       (∃ r, decode s.synState x = .error r ∧ offTable r { s with stimuli := rest } = .next t)) := by
  unfold step at h
  split at h
  · cases h
  · rename_i x u hf
    obtain ⟨rest, hs, rfl⟩ := fetch_eq_some.1 hf
    refine ⟨x, rest, hs, ?_⟩
    cases hd : decode s.synState x with
    | ok i =>
      rw [hd] at h
      exact .inl ⟨i, rfl, h⟩
    | error r =>
      rw [hd] at h
      exact .inr ⟨r, rfl, h⟩

theorem offTable_next {r : Reject} {s t : State} (h : offTable r s = .next t) :
    (r = .resetEvent ∧ t = resetEvent s) ∨
    (∃ fd, r = .noShape fd ∧ t = respond (.extracted (.err (.unsupportedField fd))) s) := by
  cases r with
  | resetEvent => cases h; exact .inl ⟨rfl, rfl⟩
  | noShape fd => cases h; exact .inr ⟨fd, rfl, rfl⟩
  | unknownSet ds => cases h
  | reservedLength => cases h
  | fieldCutShort => cases h

end Sys2Proof.Machine
end

