-- ==== Sys2Proof/Laws/Collector.lean ====
section
/-! SUPPORT. The collector on a state whose frame can be read, what the invariant gives it, and a run taken apart into steps. -/

namespace Sys2Proof.Machine

theorem rxIdx_succ {s : State} (h : s.rxIdx.toNat < 261) : (s.rxIdx + 1).toNat = s.rxIdx.toNat + 1 := by
  simp [BitVec.toNat_add]
  omega

theorem rxRead_storeRx {s : State} (b : Byte) {a : Nat} (h : s.rxIdx.toNat < 261) (ha : a < s.rxIdx.toNat + 1) :
    rxRead (storeRx b s) a = memRead (memWrite s.rxBuf s.rxIdx.toNat b) a := by
  simp only [rxRead, storeRx_rxIdx, storeRx_rxBuf, rxIdx_succ h, ha, if_true]

theorem memRead_store_isSome {s : State} (b : Byte) (hc : ∀ a < s.rxIdx.toNat, (memRead s.rxBuf a).isSome) {a : Nat}
    (ha : a < s.rxIdx.toNat + 1) : (memRead (memWrite s.rxBuf s.rxIdx.toNat b) a).isSome := by
  by_cases h : a = s.rxIdx.toNat
  · subst h
    simp
  · rw [memRead_memWrite_other _ _ h]
    exact hc a (by omega)

/-- The completion test of R142 in the state before the byte is stored. -/
theorem frameDone_iff {s : State} (b : Byte) (h : s.rxIdx.toNat < 261) :
    FrameDone (storeRx b s) ↔ 4 ≤ s.rxIdx.toNat + 1 ∧
      ∃ n, memRead (memWrite s.rxBuf s.rxIdx.toNat b) 3 = some n ∧ s.rxIdx.toNat + 1 = n.toNat + 6 := by
  unfold FrameDone
  simp only [storeRx_rxIdx, rxIdx_succ h]
  constructor
  · rintro ⟨h4, n, hn, hd⟩
    exact ⟨h4, n, by rw [← hn, rxRead_storeRx b h (by omega)], hd⟩
  · rintro ⟨h4, n, hn, hd⟩
    exact ⟨h4, n, by rw [rxRead_storeRx b h (by omega), hn], hd⟩

/-- Where every cell below `RX_IDX` has a value, the collector answers a next state: the byte stored, or the completed frame's one
output (43_collector.md R142). -/
theorem execRxcByte_cases {s : State} (b : Byte) (h : s.rxIdx.toNat < 261)
    (hc : ∀ a < s.rxIdx.toNat, (memRead s.rxBuf a).isSome) :
    (¬ FrameDone (storeRx b s) ∧ execRxcByte b s = .next (storeRx b s)) ∨
    (FrameDone (storeRx b s) ∧ ∃ buf, rxFrame (storeRx b s) = some buf ∧ execRxcByte b s =
      .next (postResult (decodeFrame buf s.expDs s.expFd (unitsG s)) (toScanning (storeRx b s)))) := by
  have hi := rxIdx_succ h
  obtain ⟨buf, hbuf⟩ : ∃ buf, rxFrame (storeRx b s) = some buf := by
    apply memSpan_isSome
    intro i hlt
    simp only [storeRx_rxIdx, hi, Nat.zero_add, storeRx_rxBuf] at hlt ⊢
    exact memRead_store_isSome b hc hlt
  have hcf : completeFrame (storeRx b s) =
      .next (postResult (decodeFrame buf s.expDs s.expFd (unitsG s)) (toScanning (storeRx b s))) := by
    simp [completeFrame, hbuf, unitsG]
  have hx : execRxcByte b s = afterStore (storeRx b s) := by simp [execRxcByte, Config.maxFrame, h]
  by_cases h4 : s.rxIdx.toNat + 1 < 4
  · refine .inl ⟨fun hd => ?_, ?_⟩
    · have := hd.1
      simp only [storeRx_rxIdx, hi] at this
      omega
    · rw [hx, afterStore]
      simp only [storeRx_rxIdx, hi]
      rw [if_pos h4]
  · have hr := rxRead_storeRx b h (a := 3) (by omega)
    obtain ⟨n, hn⟩ := Option.isSome_iff_exists.1 (memRead_store_isSome b hc (a := 3) (by omega))
    rw [hn] at hr
    have ha : afterStore (storeRx b s) =
        if (storeRx b s).rxIdx.toNat = n.toNat + 6 then completeFrame (storeRx b s) else .next (storeRx b s) := by
      rw [afterStore, if_neg (by simp only [storeRx_rxIdx, hi]; exact h4), hr]
    by_cases hd : (storeRx b s).rxIdx.toNat = n.toNat + 6
    · refine .inr ⟨⟨by simp only [storeRx_rxIdx, hi]; omega, n, hr, hd⟩, buf, hbuf, ?_⟩
      rw [hx, ha, if_pos hd, hcf]
    · refine .inl ⟨?_, by rw [hx, ha, if_neg hd]⟩
      rintro ⟨-, m, hm, hd'⟩
      rw [hr] at hm
      cases hm
      exact hd hd'

/-- An output changes nothing else. -/
theorem postResult_frame (r : DecodeResult) (s : State) :
    (postResult r s).synState = s.synState ∧ (postResult r s).synHalf = s.synHalf ∧ (postResult r s).rxIdx = s.rxIdx ∧
    (postResult r s).rxBuf = s.rxBuf ∧ (postResult r s).txBuf = s.txBuf ∧ (postResult r s).cfg = s.cfg ∧
    (postResult r s).stimuli = s.stimuli := by
  cases r <;> exact ⟨rfl, rfl, rfl, rfl, rfl, rfl, rfl⟩

theorem syncedInv_cells {s : State} (h : SyncedInv s) : ∀ a < s.rxIdx.toNat, (memRead s.rxBuf a).isSome := by
  intro a ha
  have := h.2.2.2.2.1 a ha
  simpa [rxRead, ha] using this

theorem syncedInv_idx {s : State} (h : SyncedInv s) : s.rxIdx.toNat < 261 := by
  obtain ⟨-, -, -, -, -, h⟩ := h
  by_cases h4 : 4 ≤ s.rxIdx.toNat
  · obtain ⟨n, -, hn⟩ := h h4
    have := n.isLt
    omega
  · omega

/-- The invariant depends on six fields only. -/
theorem inv_congr {s t : State} (h : Inv s) (h1 : t.synState = s.synState) (h2 : t.synHalf = s.synHalf)
    (h3 : t.rxIdx = s.rxIdx) (h4 : t.rxBuf = s.rxBuf) (h5 : t.txBuf = s.txBuf) (h6 : t.cfg = s.cfg) : Inv t := by
  obtain ⟨a, b, c, d, e, f, g⟩ := h
  refine ⟨?_, ?_, by rwa [h4], by rwa [h4], by rwa [h5], by rwa [h5], by rwa [h6]⟩
  · simpa [ScanningInv, h1, h3] using a
  · simpa [SyncedInv, rxRead, h1, h2, h3, h4] using b

theorem run_add {n : Nat} (m : Nat) {s t : State} (h : run n s = .next t) : run (n + m) s = run m t := by
  induction n generalizing s with
  | zero =>
    cases h
    simp
  | succ n ih =>
    rw [show n + 1 + m = (n + m) + 1 by omega]
    simp only [run, Host.Core.run] at h ⊢
    cases hc : core.step s with
    | next u =>
      rw [hc] at h
      exact ih h
    | fault r =>
      rw [hc] at h
      cases h
    | refused r =>
      rw [hc] at h
      cases h

theorem run_one (s : State) : run 1 s = step s := by
  have h : core.step s = step s := rfl
  simp only [run, Host.Core.run]
  rw [h]
  cases step s <;> rfl

theorem execAll_append (l m : List Instr) (s : State) : execAll (l ++ m) s =
    match execAll l s with
    | .next t => execAll m t
    | .fault r => .fault r
    | .refused r => .refused r := by
  induction l generalizing s with
  | nil => rfl
  | cons i rest ih =>
    simp only [List.cons_append, execAll]
    cases exec i s <;> simp [ih]

end Sys2Proof.Machine
end

