-- ==== Sys2Proof/Laws/Decode.lean ====
section
/-! SUPPORT. The class W key and the slices the decoder takes from it. -/

namespace Sys2Proof

theorem fieldKey_toNat (a b c : Byte) : (fieldKey a b c).toNat = a.toNat * 65536 + b.toNat * 256 + c.toNat := by
  have h : (a ++ b ++ c : BitVec (8 + 8 + 8)).toNat = a.toNat * 65536 + b.toNat * 256 + c.toNat := by
    have hb := b.isLt
    have hc := c.isLt
    rw [BitVec.toNat_append, BitVec.toNat_append, ← Nat.shiftLeft_add_eq_or_of_lt hc,
      ← Nat.shiftLeft_add_eq_or_of_lt hb]
    simp only [Nat.shiftLeft_eq]
    omega
  exact h

@[simp] theorem keySet_fieldKey (a b c : Byte) : keySet (fieldKey a b c) = a := by
  apply BitVec.eq_of_toNat_eq
  have := a.isLt
  have := b.isLt
  have := c.isLt
  simp only [keySet, BitVec.extractLsb'_toNat, fieldKey_toNat, Nat.shiftRight_eq_div_pow]
  omega

@[simp] theorem keyLength_fieldKey (a b c : Byte) : keyLength (fieldKey a b c) = b := by
  apply BitVec.eq_of_toNat_eq
  have := a.isLt
  have := b.isLt
  have := c.isLt
  simp only [keyLength, BitVec.extractLsb'_toNat, fieldKey_toNat, Nat.shiftRight_eq_div_pow]
  omega

@[simp] theorem keyDescriptor_fieldKey (a b c : Byte) : keyDescriptor (fieldKey a b c) = c := by
  apply BitVec.eq_of_toNat_eq
  have := a.isLt
  have := b.isLt
  have := c.isLt
  simp only [keyDescriptor, BitVec.extractLsb'_toNat, fieldKey_toNat, Nat.shiftRight_eq_div_pow]
  omega

/-- A field decodes to what its set and descriptor select, with exactly the data its length byte announces. -/
theorem decodeField_next {key : BitVec 24} {data : List Byte} {i : Instr} (h : decodeField key data = .ok i) :
    let d := data.take (dataCount (keyLength key))
    dataCount (keyLength key) ≤ data.length ∧
    ((shapeOf (keySet key) (keyDescriptor key) = some .accel ∧ i = .extAccel d) ∨
     (shapeOf (keySet key) (keyDescriptor key) = some .gpsTime ∧ i = .extGpstime d) ∨
     (shapeOf (keySet key) (keyDescriptor key) = some .raw ∧ 2 ≤ (keyLength key).toNat ∧
       i = .extRaw (keySet key) (keyDescriptor key) d)) := by
  unfold decodeField at h
  split at h
  · cases h
  · rename_i hlen
    refine ⟨Nat.le_of_not_lt hlen, ?_⟩
    dsimp only at h
    split at h
    · rename_i hs
      cases h
      exact .inl ⟨hs, rfl⟩
    · rename_i hs
      cases h
      exact .inr (.inl ⟨hs, rfl⟩)
    · rename_i hs
      split at h
      · cases h
      · rename_i h2
        cases h
        exact .inr (.inr ⟨hs, Nat.le_of_not_lt h2, rfl⟩)
    · split at h <;> cases h

theorem shapeOf_raw {ds fd : Byte} (h : shapeOf ds fd = some .raw) : ds ∈ Config.commandSets := by
  unfold shapeOf at h
  split at h
  · split at h
    · cases h
    · split at h <;> cases h
  · split at h
    · assumption
    · cases h

theorem shapeOf_commandSet {ds : Byte} (h : ds ∈ Config.commandSets) (fd : Byte) : shapeOf ds fd = some .raw := by
  have hne : ds ≠ 0x80 := by
    rintro rfl
    exact absurd h (by decide)
  unfold shapeOf
  rw [if_neg hne, if_pos h]

end Sys2Proof
end

