-- ==== Sys2Proof/Laws/PerInstr.lean ====
section
/-! SUPPORT. A statement about every operation as it is written: the stimulus that encodes it is of the class of its row
(30_encoding.md R100, R104). -/

namespace Sys2Proof.Laws.KeyClass

/-- The encoding of an operation has the class of its row. -/
def Statement (i : Instr) : Prop := (encode i).opClass = some i.opClass

theorem cksClr : Statement (.cksClr) := rfl
theorem cksUpd (b : Byte) : Statement (.cksUpd b) := rfl
theorem cksRd : Statement (.cksRd) := rfl
theorem cksSpan (s : List Byte) : Statement (.cksSpan s) := rfl
theorem synRearm : Statement (.synRearm) := rfl
theorem decDecode (buf : List Byte) (ds : Byte) (fds : BitVec 256) : Statement (.decDecode buf ds fds) := rfl
theorem bldBuild (ds : Byte) (fields : List (Byte × List Byte)) : Statement (.bldBuild ds fields) := rfl
theorem cfgWr (reg : Reg) (v : BitVec 256) : Statement (.cfgWr reg v) := rfl
theorem cfgRd (reg : Reg) : Statement (.cfgRd reg) := rfl
theorem reserved9 : Statement (.reserved9) := rfl
theorem reservedA : Statement (.reservedA) := rfl
theorem reservedB : Statement (.reservedB) := rfl
theorem reservedC : Statement (.reservedC) := rfl
theorem reservedD : Statement (.reservedD) := rfl
theorem reservedE : Statement (.reservedE) := rfl
theorem reservedF : Statement (.reservedF) := rfl
theorem synByte (b : Byte) : Statement (.synByte b) := rfl
theorem rxcByte (b : Byte) : Statement (.rxcByte b) := rfl
theorem synDeadline : Statement (.synDeadline) := rfl
theorem rxcDeadline : Statement (.rxcDeadline) := rfl
theorem extAccel (d : List Byte) : Statement (.extAccel d) := rfl
theorem extGpstime (d : List Byte) : Statement (.extGpstime d) := rfl
theorem extRaw (ds fd : Byte) (d : List Byte) : Statement (.extRaw ds fd d) := rfl
theorem cmdIdle : Statement (.cmdIdle) := rfl
theorem cmdResume : Statement (.cmdResume) := rfl
theorem cmdPpsSource (p : List Byte) : Statement (.cmdPpsSource p) := rfl
theorem cmdPpsPulse (p : List Byte) : Statement (.cmdPpsPulse p) := rfl
theorem cmdGnssOffset (x y z : BitVec 32) : Statement (.cmdGnssOffset x y z) := rfl
theorem cmdMsgFormat (tds tfd : Byte) (dec : Nat) : Statement (.cmdMsgFormat tds tfd dec) := rfl
theorem cmdStreamEn (p : List Byte) : Statement (.cmdStreamEn p) := rfl
theorem cmdPoll (p : List Byte) : Statement (.cmdPoll p) := rfl

end Sys2Proof.Laws.KeyClass
end

