-- ==== Sys2Proof/Laws/Validator.lean ====
section
/-! SUPPORT. The checks of the validator in the terms of Sys2Proof/Safety.lean, and everything the parts of `decodeFrame` can
answer. -/

namespace Sys2Proof.Machine

theorem lengthOk_iff (buf : List Byte) : lengthOk buf = true ↔ HoldsFrame buf := by
  simp only [lengthOk, Bool.and_eq_true, decide_eq_true_eq]
  rfl

theorem cksCheck_iff (buf : List Byte) : cksCheck buf (frameLength buf) = true ↔ TrailerMatches buf := by
  simp [cksCheck, coveredSum, trailer, TrailerMatches, frameLength, announced]

theorem syncOk_iff (buf : List Byte) : syncOk buf = true ↔ byteAt buf 0 = 0x75 ∧ byteAt buf 1 = 0x65 := by
  simp only [syncOk, Bool.and_eq_true, decide_eq_true_eq]
  rfl

theorem payload_length {buf : List Byte} (h : HoldsFrame buf) : (payload buf).length = announced buf := by
  have := h.2
  simp [payload]
  omega

/-- The field walk raises no other error than its two (44_decoder.md R162, R163). -/
theorem walkFields_error {fds : BitVec 256} {n off : Nat} {p : List Byte} {e : ErrorEvent}
    (h : walkFields fds n off p = .error e) :
    (∃ o, e = .malformedField o) ∨ ∃ d, e = .unexpectedFieldDescriptor d := by
  induction n generalizing off p with
  | zero => cases h
  | succ n ih =>
    match p with
    | [] => cases h
    | [x] =>
      cases h
      exact .inl ⟨_, rfl⟩
    | l :: d :: rest =>
      simp only [walkFields] at h
      split at h
      · cases h
        exact .inl ⟨_, rfl⟩
      · split at h
        · cases h
          exact .inr ⟨_, rfl⟩
        · split at h
          · rename_i hw
            cases h
            exact ih hw
          · cases h

/-- What comes after check 3: the walk's error, a bad marker, the first field without a value, or the record
(44_decoder.md R156). -/
theorem decodePayload_cases (buf : List Byte) (ds : Byte) (fds : BitVec 256) (g : Bool) :
    (∃ e, walkFields fds (announced buf) 4 (payload buf) = .error e ∧ decodePayload buf ds fds g = .err e) ∨
    ∃ raw, walkFields fds (announced buf) 4 (payload buf) = .ok raw ∧
      ((syncOk buf = false ∧ decodePayload buf ds fds g = .err (.badSync (byteAt buf 0, byteAt buf 1))) ∨
       (syncOk buf = true ∧
        ((∃ fd, interpret ds g raw = .error fd ∧ decodePayload buf ds fds g = .err (.unsupportedField fd)) ∨
         ∃ vs, interpret ds g raw = .ok vs ∧
           decodePayload buf ds fds g = .ok { descriptorSet := ds, fields := vs }))) := by
  unfold decodePayload
  show (∃ e, walkFields fds (byteAt buf 3).toNat 4 (slice buf 4 (byteAt buf 3).toNat) = .error e ∧ _) ∨
    ∃ raw, walkFields fds (byteAt buf 3).toNat 4 (slice buf 4 (byteAt buf 3).toNat) = .ok raw ∧ _
  cases h : walkFields fds (byteAt buf 3).toNat 4 (slice buf 4 (byteAt buf 3).toNat) with
  | error e => exact .inl ⟨e, rfl, by simp [h]⟩
  | ok raw =>
    refine .inr ⟨raw, rfl, ?_⟩
    cases hs : syncOk buf
    · simp [h]
    · simp only [h, Bool.true_eq_false, if_false, false_and, false_or, true_and]
      cases hi : interpret ds g raw <;> simp

/-- A buffer that passes checks 1 to 3 goes on to checks 4 and 5 (44_decoder.md R156). -/
theorem decodeFrame_of_header {buf : List Byte} {ds : Byte} (fds : BitVec 256) (g : Bool) (h : PassesHeader buf ds) :
    decodeFrame buf ds fds g = decodePayload buf ds fds g := by
  have h1 := (lengthOk_iff buf).2 h.holds
  have h2 := (cksCheck_iff buf).2 h.trailer
  have h3 : setOk ds ds = true := by simp [setOk, h.legal]
  simp [decodeFrame, h1, h2, h.set, h3]

/-- Interpretation gives a record exactly when every field has a value. -/
theorem interpret_ok_iff {ds : Byte} {g : Bool} {raw : List (Byte × List Byte)} {vs : List TypedField} :
    interpret ds g raw = .ok vs ↔ raw.map (fun f => extract ds f.1 f.2 g) = vs.map some := by
  induction raw generalizing vs with
  | nil => cases vs <;> simp [interpret]
  | cons f r ih =>
    obtain ⟨fd, d⟩ := f
    simp only [interpret, List.map_cons]
    cases he : extract ds fd d g with
    | none => cases vs <;> simp
    | some v =>
      cases vs with
      | nil => cases interpret ds g r <;> simp
      | cons w ws =>
        simp only [List.map_cons, List.cons.injEq, Option.some.injEq, ← ih]
        cases interpret ds g r <;> simp

/-- The first field without a value gives its descriptor. -/
theorem interpret_error {ds : Byte} {g : Bool} {good : List (Byte × List Byte)} {fd : Byte} {d : List Byte}
    (rest : List (Byte × List Byte)) (hg : ∀ f ∈ good, (extract ds f.1 f.2 g).isSome) (h : extract ds fd d g = none) :
    interpret ds g (good ++ (fd, d) :: rest) = .error fd := by
  induction good with
  | nil => simp [interpret, h]
  | cons f r ih =>
    obtain ⟨v, hv⟩ := Option.isSome_iff_exists.1 (hg f (by simp))
    simp [interpret, hv, ih fun f hf => hg f (by simp [hf])]

/-- The fields on the wire take as many bytes as the length byte says (46_builder.md R196, R197). -/
theorem serializeFields_length (fields : List (Byte × List Byte)) :
    (serializeFields fields).length = payloadLength fields := by
  induction fields with
  | nil => rfl
  | cons f r ih =>
    simp [serializeFields, payloadLength, ih]
    omega

theorem payloadLength_eq_sum (fields : List (Byte × List Byte)) :
    payloadLength fields = (fields.map fun p => 2 + p.2.length).sum := by
  induction fields with
  | nil => rfl
  | cons f r ih => simp [payloadLength, ih]

/-- What a successful `build` was given, and its frame (46_builder.md R196). -/
theorem build_ok {ds : Byte} {fields : List (Byte × List Byte)} {f : List Byte} (h : build ds fields = .ok f) :
    ds ∈ Config.dsEnum ∧ (∀ p ∈ fields, p.2.length ≤ Config.maxFieldData) ∧
      payloadLength fields ≤ Config.maxPayload ∧ f = withChecksum (coveredBytes ds fields) := by
  rcases build_cases ds fields with ⟨-, e⟩ | ⟨-, _, -, e⟩ | ⟨-, -, -, e⟩ | ⟨h1, h2, h3, e⟩ <;> rw [e] at h <;> cases h
  exact ⟨h1, firstTooLong_eq_none.1 h2, h3, rfl⟩

theorem setByte_legal (d : DescriptorSet) : setByte d ∈ Config.dsEnum := by cases d <;> decide

theorem bytesBe_length (v n : Nat) : (bytesBe v n).length = n := by
  induction n with
  | zero => rfl
  | succ n ih => simp [bytesBe, ih]

end Sys2Proof.Machine
end

