-- ==== Sys2Proof/Tests/Slice0.lean ====
section
/-! SUPPORT. Tests: ill-formed operands are refused, words of the opcode table decode, single operations give the results of
spec/95_test_vectors.md, and every statement with hypotheses has a state and operands that meet them. -/

namespace Sys2Proof.Tests

open Sys2Proof.Machine

/-! ## Helpers -/

/-- The next state of an outcome, if it is one. -/
def nextOf : Host.Outcome State Fault Refusal → Option State
  | .next t => some t
  | .fault _ => none
  | .refused _ => none

/-- Cells from address `a` on. -/
def cellsFrom (a : Nat) : List Byte → Memory
  | [] => []
  | b :: rest => (a, b) :: cellsFrom (a + 1) rest

/-- The reset state with these stimuli waiting. -/
def waiting (xs : List Stimulus) : State := { State.reset with stimuli := xs }

/-- A frame partly received: Synced with these bytes collected and these stimuli waiting. -/
def collected (bs : List Byte) (xs : List Stimulus) : State :=
  { State.reset with synState := .synced, rxIdx := BitVec.ofNat 9 bs.length, rxBuf := cellsFrom 0 bs, stimuli := xs }

/-- `F_ACC` (95_test_vectors.md): one acceleration field in set 0x80. -/
def fAcc : List Byte :=
  [0x75, 0x65, 0x80, 0x0E, 0x0E, 0x04, 0xBD, 0xCC, 0xCC, 0xCD, 0, 0, 0, 0, 0x3F, 0x80, 0, 0, 0x5B, 0x02]

/-- The data bytes of `F_ACC`'s field. -/
def accData : List Byte := [0xBD, 0xCC, 0xCC, 0xCD, 0, 0, 0, 0, 0x3F, 0x80, 0, 0]

/-- `F_EMPTY80` (95_test_vectors.md). -/
def fEmpty : List Byte := [0x75, 0x65, 0x80, 0x00, 0x5A, 0x03]

/-- `F_ACK` (95_test_vectors.md): one RAW field in set 0x01. -/
def fAck : List Byte := [0x75, 0x65, 0x01, 0x04, 0x04, 0xF1, 0x02, 0x00, 0xD6, 0x6C]

/-- The expected set with one member. -/
def only (fd : Nat) : BitVec 256 := 1#256 <<< fd

/-! ## WellFormed: one ill-formed operand for each check -/

theorem test_wf_cfgWr : Instr.wf (.cfgWr .expDs 0xFF) = true ∧ Instr.wf (.cfgWr .expDs 0x100) = false := by decide

theorem test_wf_cfgWr_widths : Instr.wf (.cfgWr .cfg 0x100) = false ∧ Instr.wf (.cfgWr .status 0x100) = false ∧
    Instr.wf (.cfgWr .expFd (only 255)) = true := by decide

theorem test_wf_extAccel : Instr.wf (.extAccel (List.replicate 253 0)) = true ∧
    Instr.wf (.extAccel (List.replicate 254 0)) = false := by
  simp only [Instr.wf, List.length_replicate]
  decide

theorem test_wf_extGpstime : Instr.wf (.extGpstime (List.replicate 254 0)) = false := by
  simp only [Instr.wf, List.length_replicate]
  decide

theorem test_wf_extRaw : Instr.wf (.extRaw 0x13 0 []) = true ∧ Instr.wf (.extRaw 0x80 0 []) = false ∧
    Instr.wf (.extRaw 0x01 0 (List.replicate 254 0)) = false := by
  simp only [Instr.wf, List.length_replicate]
  decide

theorem test_wf_cmdMsgFormat : Instr.wf (.cmdMsgFormat 0x80 0x04 0) = true ∧
    Instr.wf (.cmdMsgFormat 0x80 0x04 (256 ^ Config.decimBytes)) = false := by
  simp [Instr.wf]

/-! ## Decoding: words written out from the encodings of 30_encoding.md R100, R104 and spec/opcode_table.json -/

/-- Class H: OPSEL 0000, 0001, 0010, 0011. -/
theorem test_decode_checksum : decodeTableWord 8 0b0000 = some .cksClr ∧ decodeTableWord 8 0b0001 = some (.cksUpd 0) ∧
    decodeTableWord 8 0b0010 = some .cksRd ∧ decodeTableWord 8 0b0011 = some (.cksSpan []) := by decide

/-- Class H: OPSEL 0100, 0101, 0110, 0111, 1000. -/
theorem test_decode_requests : decodeTableWord 8 0b0100 = some .synRearm ∧
    decodeTableWord 8 0b0101 = some (.decDecode [] 0 0) ∧ decodeTableWord 8 0b0110 = some (.bldBuild 0 []) ∧
    decodeTableWord 8 0b0111 = some (.cfgWr .expDs 0) ∧ decodeTableWord 8 0b1000 = some (.cfgRd .expDs) := by decide

/-- Class H: OPSEL 1001 to 1111 are reserved; a word of five bits is none. -/
theorem test_decode_reserved : decodeTableWord 8 0b1001 = some .reserved9 ∧ decodeTableWord 8 0b1010 = some .reservedA ∧
    decodeTableWord 8 0b1011 = some .reservedB ∧ decodeTableWord 8 0b1100 = some .reservedC ∧
    decodeTableWord 8 0b1101 = some .reservedD ∧ decodeTableWord 8 0b1110 = some .reservedE ∧
    decodeTableWord 8 0b1111 = some .reservedF ∧ decodeTableWord 8 0b10000 = none := by decide

/-- Class R: kind bit, state bit, then the byte. -/
theorem test_decode_receive : decodeTableWord 16 0b0001110101 = some (.synByte 0x75) ∧
    decodeTableWord 16 0b0111111110 = some (.rxcByte 0xFE) ∧ decodeTableWord 16 0b1000000000 = some .synDeadline ∧
    decodeTableWord 16 0b1100000000 = some .rxcDeadline := by decide

/-- Class W: set, field_length, descriptor; 14 and 12 are 12 and 10 data bytes. -/
theorem test_decode_fields : decodeTableWord 24 0b10000000_00001110_00000100 = some (.extAccel (List.replicate 12 0)) ∧
    decodeTableWord 24 0b10000000_00001100_11010011 = some (.extGpstime (List.replicate 10 0)) ∧
    decodeTableWord 24 0b00010011_00000011_11110001 = some (.extRaw 0x13 0xF1 [0]) := by decide

/-- Class P rows have no key: the name selects the template. -/
theorem test_decode_templates :
    decode .scanning (.template .idle {}) = .ok .cmdIdle ∧ decode .scanning (.template .resume {}) = .ok .cmdResume ∧
    decode .scanning (.template .ppsSource { bytes := [1, 1] }) = .ok (.cmdPpsSource [1, 1]) ∧
    decode .scanning (.template .ppsPulse { bytes := [2] }) = .ok (.cmdPpsPulse [2]) ∧
    decode .scanning (.template .gnssOffset { x := 1, y := 2, z := 3 }) = .ok (.cmdGnssOffset 1 2 3) ∧
    decode .scanning (.template .streamEn { bytes := [3] }) = .ok (.cmdStreamEn [3]) ∧
    decode .scanning (.template .poll { bytes := [4] }) = .ok (.cmdPoll [4]) := ⟨rfl, rfl, rfl, rfl, rfl, rfl, rfl⟩

theorem test_decode_msgFormat : decode .synced (.template .msgFormat { ds := 0x80, tag := 0x04, number := 0 }) =
    .ok (.cmdMsgFormat 0x80 0x04 0) := by
  simp [decode, decodeTemplate]

/-- A key that names no operation is rejected by name. -/
theorem test_decode_rejects : decode .scanning (.field 0x550201 []) = .error (.unknownSet 0x55) ∧
    decode .scanning (.field 0x800201 []) = .error (.noShape 0x01) ∧
    decode .scanning (.field 0x010101 []) = .error .reservedLength ∧
    decode .scanning (.field 0x010401 [0]) = .error .fieldCutShort ∧
    decode .scanning .reset = .error .resetEvent := ⟨rfl, rfl, rfl, rfl, rfl⟩

/-- A table word placed for fetching is the next operation a step runs. -/
theorem test_withFetchWord : (nextOf (step (State.reset.withFetchWord 16 0b0001110101))).map (·.synHalf) = some true ∧
    (nextOf (step (State.reset.withFetchWord 16 0b0110000000))).map (·.rxIdx) = some 3 := by decide

/-! ## Operations: results of spec/95_test_vectors.md -/

/-- Program 3, its third line: (75, 75) and 0x65 give (DA, 4F), both sums wrapping. -/
theorem test_cksUpd : (nextOf (exec (.cksUpd 0x65) { State.reset with cksA := 0x75, cksB := 0x75 })).map
    (fun t => (t.cksA, t.cksB)) = some (0xDA, 0xDA + 0x75) := by decide

theorem test_cksUpd_wraps : (nextOf (exec (.cksUpd 0x80) { State.reset with cksA := 0xDA, cksB := 0x4F })).map
    (fun t => (t.cksA, t.cksB)) = some (0x5A, 0xA9) := by decide

theorem test_cksClr : (nextOf (exec .cksClr { State.reset with cksA := 0x5A, cksB := 0x03 })).map
    (fun t => (t.cksA, t.cksB)) = some (0, 0) := by decide

theorem test_cksRd : (nextOf (exec .cksRd { State.reset with cksA := 0x5A, cksB := 0x03 })).map (·.responses) =
    some [.checksum 0x5A 0x03] := by decide

/-- Program 3, its ninth line; the accumulators hold the pair afterwards. -/
theorem test_cksSpan : (nextOf (exec (.cksSpan [0x75, 0x65, 0x80, 0x00]) State.reset)).map
    (fun t => (t.responses, t.cksA, t.cksB)) = some ([.checksum 0x5A 0x03], 0x5A, 0x03) := by decide

/-- V-SYS-2. -/
theorem test_synRearm : (nextOf (exec .synRearm (collected [0x75, 0x65, 0x80] []))).map
    (fun t => (t.synState, t.synHalf, t.rxIdx)) = some (.scanning, false, 0) := by decide

/-- V-DEC-1 with V-DEC-20's units flag: patterns as received, the flag beside them. -/
theorem test_decDecode : (nextOf (exec (.decDecode fAcc 0x80 (only 4)) { State.reset with cfg := 1 })).map (·.responses) =
    some [.decoded (.ok
      { descriptorSet := 0x80, fields := [.accel 0xBDCCCCCD 0x00000000 0x3F800000 true] })] := by decide

/-- V-DEC-10b: one byte left over after the last whole field. -/
theorem test_decDecode_malformed :
    (nextOf (exec (.decDecode [0x75, 0x65, 0x80, 0x03, 0x02, 0x04, 0x07, 0x6A, 0x32] 0x80 (only 4)) State.reset)).map
      (·.responses) = some [.decoded (.err (.malformedField 6))] := by decide

/-- V-DEC-16: wrong sync and wrong set, checksum valid: check 3 before check 5. -/
theorem test_decode_order : decodeFrame [0x00, 0x00, 0x0C, 0x00, 0x0C, 0x18] 0x80 0 false =
    .err (.unexpectedDescriptorSet 0x0C) := by decide

/-- V-DEC-22: checks finish before interpretation starts. -/
theorem test_decode_checks_first :
    decodeFrame [0x75, 0x65, 0x80, 0x05, 0x03, 0x05, 0x01, 0x02, 0x99, 0x03, 0xA6] 0x80 (only 5) false =
      .err (.unexpectedFieldDescriptor 0x99) := by decide

/-- V-BLD-4: two fields. -/
theorem test_bldBuild :
    (nextOf (exec (.bldBuild 0x0C [(0x0F, [0x80, 0x04, 0x00, 0x0A]), (0x11, [0x01])]) State.reset)).map (·.txStream) =
      some [0x75, 0x65, 0x0C, 0x09, 0x06, 0x0F, 0x80, 0x04, 0x00, 0x0A, 0x03, 0x11, 0x01, 0xA7, 0x25] := by decide

/-- V-BLD-10: the set is tested before the field. -/
theorem test_bldBuild_refused :
    (nextOf (exec (.bldBuild 0x55 [(0x01, List.replicate 254 0)]) State.reset)).map (fun t => (t.errors, t.txStream)) =
      some ([.badDescriptorSet 0x55], []) := by decide

/-- V-SYS-3: bits 7:1 ignored. -/
theorem test_cfgWr : (nextOf (exec (.cfgWr .cfg 0xFE) { State.reset with cfg := 1 })).map (·.cfg) = some 0 ∧
    (nextOf (exec (.cfgWr .cfg 0xFF) State.reset)).map (·.cfg) = some 1 := by decide

/-- V-SYS-4: the write is ignored. -/
theorem test_cfgWr_status : nextOf (exec (.cfgWr .status 0x01) State.reset) = some State.reset := by decide

/-- V-SYS-2: `STATUS` reads 0x01 in Synced. -/
theorem test_cfgRd : (nextOf (exec (.cfgRd .status) (collected [0x75, 0x65, 0x80] []))).map (·.responses) =
    some [.register .status 0x01] := by decide

/-- V-SYS-5, for the first and the last code. -/
theorem test_reserved : nextOf (exec .reserved9 State.reset) = some { State.reset with responses := [.refused 0x9] } ∧
    nextOf (exec .reservedF State.reset) = some { State.reset with responses := [.refused 0xF] } := by decide

/-- V-SYS-5. -/
theorem test_reservedA : nextOf (exec .reservedA State.reset) = some { State.reset with responses := [.refused 0xA] } := by
  decide

/-- V-RXC-10's first two bytes: the second 75 is discarded with the first (42_synchronizer.md R130). -/
theorem test_synByte : (nextOf (exec (.synByte 0x75) { State.reset with synHalf := true })).map
    (fun t => (t.synState, t.synHalf, t.rxIdx)) = some (.scanning, false, 0) := by decide

/-- A marker matched: both bytes kept, `RX_IDX = 2`. -/
theorem test_synByte_match : (nextOf (exec (.synByte 0x65) { State.reset with synHalf := true })).map
    (fun t => (t.synState, t.synHalf, t.rxIdx, t.rxBuf)) = some (.synced, false, 2, [(0, 0x75), (1, 0x65)]) := by decide

/-- The last byte of `F_EMPTY80`: the record, and Scanning again (Program 4's last line). -/
theorem test_rxcByte : (nextOf (exec (.rxcByte 0x03) { (collected [0x75, 0x65, 0x80, 0x00, 0x5A] []) with expDs := 0x80 })).map
    (fun t => (t.synState, t.rxIdx, t.records, t.errors)) =
      some (.scanning, 0, [{ descriptorSet := 0x80, fields := [] }], []) := by decide

/-- V-RXC-11 in its shape: the reset configuration admits no record. -/
theorem test_rxcByte_error : (nextOf (exec (.rxcByte 0x03) (collected [0x75, 0x65, 0x80, 0x00, 0x5A] []))).map
    (fun t => (t.synState, t.records, t.errors)) = some (.scanning, [], [.unexpectedDescriptorSet 0x80]) := by decide

/-- Program 4: the fifth line. -/
theorem test_synDeadline : (nextOf (exec .synDeadline { State.reset with synHalf := true })).map
    (fun t => (t.synState, t.synHalf, t.errors)) = some (.scanning, false, [.syncTimeout]) := by decide

/-- Program 4: the second line. -/
theorem test_rxcDeadline : (nextOf (exec .rxcDeadline (collected [0x75, 0x65, 0x80, 0x0E, 0x0E, 0x04] []))).map
    (fun t => (t.synState, t.rxIdx, t.errors)) = some (.scanning, 0, [.truncatedFrame]) := by decide

theorem test_extAccel : (nextOf (exec (.extAccel accData) State.reset)).map (·.responses) =
    some [.extracted (.ok (.accel 0xBDCCCCCD 0x00000000 0x3F800000 false))] := by decide

/-- V-DEC-14's field: 8 data bytes. -/
theorem test_extAccel_short : (nextOf (exec (.extAccel (List.replicate 8 0)) State.reset)).map (·.responses) =
    some [.extracted (.err (.unsupportedField 0x04))] := by decide

/-- V-DEC-19's field: the last two of 12 bytes ignored; 2200 is 0x0898. -/
theorem test_extGpstime : (nextOf (exec (.extGpstime [0x41, 0x15, 0x18, 0x02, 0, 0, 0, 0, 0x08, 0x98, 0x00, 0x07])
    State.reset)).map (·.responses) = some [.extracted (.ok (.gpsTime 0x4115180200000000 2200))] := by decide

/-- V-DEC-18's field. -/
theorem test_extRaw : (nextOf (exec (.extRaw 0x01 0xF1 [0x02, 0x00]) State.reset)).map (·.responses) =
    some [.extracted (.ok (.raw 0xF1 [0x02, 0x00]))] := by decide

/-- V-BLD-1 and V-BLD-2 through the template's own function, with the spec's default parameters. -/
theorem test_template_idle :
    (runTemplate { ds := .sys, fd := 0x02, pre := [] } [] State.reset).txStream =
      [0x75, 0x65, 0x01, 0x02, 0x02, 0x02, 0xE1, 0xC7] := by decide

theorem test_template_resume :
    (runTemplate { ds := .sys, fd := 0x06, pre := [] } [] State.reset).txStream =
      [0x75, 0x65, 0x01, 0x02, 0x02, 0x06, 0xE5, 0xCB] := by decide

/-- V-BLD-12, with its illustrative parameters. -/
theorem test_template_gnssOffset :
    (runTemplate { ds := .gnss, fd := 0x13, pre := [] } (gnssOffsetBytes 0x3E800000 0xBF000000 0x3FC00000)
      State.reset).txStream =
      [0x75, 0x65, 0x0D, 0x0E, 0x0E, 0x13, 0x3E, 0x80, 0, 0, 0xBF, 0, 0, 0, 0x3F, 0xC0, 0, 0, 0x92, 0xE8] := by decide

/-- V-BLD-13, with its illustrative parameters and two decimation bytes. -/
theorem test_template_msgFormat :
    (runTemplate { ds := .threeDm, fd := 0x0F, pre := [] } (msgFormatBytes 2 0x80 0x04 10) State.reset).txStream =
      [0x75, 0x65, 0x0C, 0x06, 0x06, 0x0F, 0x80, 0x04, 0x00, 0x0A, 0x8F, 0x2E] := by decide

/-- V-BLD-14, with its illustrative parameters. -/
theorem test_template_payload :
    (runTemplate { ds := .threeDm, fd := 0x28, pre := [] } [0x01, 0x01] State.reset).txStream =
      [0x75, 0x65, 0x0C, 0x04, 0x04, 0x28, 0x01, 0x01, 0x18, 0x52] := by decide

/-- `P_GRAVITY` = 9.80665 (00_scope.md R12). -/
theorem test_gravity : Config.gravity * 100000 = 980665 := by norm_num [Config.gravity]

/-- A step on a field that has no shape in set 0x80 hands back `UnsupportedField` (45_extractor.md R188). -/
theorem test_step_noShape : (nextOf (step (waiting [.field 0x800405 [0x01, 0x02]]))).map
    (fun t => (t.responses, t.stimuli)) = some ([.extracted (.err (.unsupportedField 0x05))], []) := by decide

/-- V-BLD-13's decimation bytes, 10 in two bytes. -/
theorem test_bytesBe : bytesBe 10 2 = [0x00, 0x0A] ∧ bytesBe 0x1234 2 = [0x12, 0x34] := by decide

/-- 44_decoder.md R172: a lone `GpsTime` and two accelerations have the tag GENERIC (V-DEC-19, V-DEC-23). -/
theorem test_recordTag : recordTag { descriptorSet := 0x80, fields := [.gpsTime 0 0] } = .generic ∧
    recordTag { descriptorSet := 0x80, fields := [.accel 0 0 0 true, .gpsTime 0 0] } = .towAccel ∧
    recordTag { descriptorSet := 0x80, fields := [.accel 0 0 0 true, .accel 0 0 0 true] } = .generic := by decide

/-- Frames of 95_test_vectors.md that the decoder takes whole. -/
theorem test_decode_ack : decodeFrame fAck 0x01 (only 0xF1) false =
    .ok { descriptorSet := 0x01, fields := [.raw 0xF1 [0x02, 0x00]] } := by decide

/-! ## Witnesses: a state and operands for the hypotheses of each statement

The invariant first: it holds of the states the witnesses use. -/

theorem cellsFrom_keys (a : Nat) (bs : List Byte) : (cellsFrom a bs).map Prod.fst = List.range' a bs.length := by
  induction bs generalizing a with
  | nil => rfl
  | cons b rest ih => simp [cellsFrom, ih, List.range'_succ]

theorem memRead_cellsFrom (bs : List Byte) (i : Nat) : ∀ a, memRead (cellsFrom a bs) (a + i) = bs[i]? := by
  induction bs generalizing i with
  | nil => simp [cellsFrom, memRead]
  | cons b rest ih =>
    intro a
    cases i with
    | zero => simp [cellsFrom, memRead]
    | succ i =>
      have := ih i (a + 1)
      rw [Nat.add_assoc, Nat.add_comm 1] at this
      simp [cellsFrom, memRead, this]

theorem rxRead_collected {bs : List Byte} (xs : List Stimulus) {i : Nat} (hl : bs.length < 512) (hi : i < bs.length) :
    rxRead (collected bs xs) i = bs[i]? := by
  have h := memRead_cellsFrom bs i 0
  rw [Nat.zero_add] at h
  have hx : (collected bs xs).rxIdx.toNat = bs.length := by
    simp [collected]
    omega
  rw [rxRead, hx, if_pos hi]
  exact h

theorem inv_waiting (xs : List Stimulus) : Inv (waiting xs) := by
  refine ⟨fun _ => rfl, fun h => ?_, ?_, ?_, ?_, ?_, ?_⟩
  · cases h
  all_goals simp [waiting, State.reset, Memory.wf, Memory.within]

theorem inv_half (xs : List Stimulus) : Inv { waiting xs with synHalf := true } := by
  refine ⟨fun _ => rfl, fun h => ?_, ?_, ?_, ?_, ?_, ?_⟩
  · cases h
  all_goals simp [waiting, State.reset, Memory.wf, Memory.within]

theorem inv_collected {bs : List Byte} (xs : List Stimulus) (h2 : 2 ≤ bs.length) (hl : bs.length ≤ 260)
    (h0 : bs[0]? = some 0x75) (h1 : bs[1]? = some 0x65) (h3 : 4 ≤ bs.length → ∃ n, bs[3]? = some n ∧ bs.length < n.toNat + 6) :
    Inv (collected bs xs) := by
  have hx : (collected bs xs).rxIdx.toNat = bs.length := by
    simp [collected]
    omega
  have hr : ∀ i < bs.length, rxRead (collected bs xs) i = bs[i]? := fun i hi => rxRead_collected xs (by omega) hi
  refine ⟨fun h => ?_, fun _ => ⟨rfl, by omega, ?_, ?_, ?_, ?_⟩, ?_, ?_, ?_, ?_, ?_⟩
  · cases h
  · rw [hr 0 (by omega), h0]
    rfl
  · rw [hr 1 (by omega), h1]
    rfl
  · intro a ha
    rw [hx] at ha
    rw [hr a ha]
    simp [ha]
  · rw [hx]
    intro h4
    obtain ⟨n, hn, hlt⟩ := h3 h4
    exact ⟨n, by rw [hr 3 (by omega), hn], hlt⟩
  · show ((cellsFrom 0 bs).map Prod.fst).Pairwise (· < ·)
    rw [cellsFrom_keys]
    exact List.pairwise_lt_range'
  · show ∀ a ∈ (cellsFrom 0 bs).map Prod.fst, a < 261
    rw [cellsFrom_keys]
    intro a ha
    rw [List.mem_range'_1] at ha
    omega
  all_goals simp [collected, State.reset, Memory.wf, Memory.within]

/-- Five bytes of the shortest frame, one to go. -/
theorem inv_almostEmpty (xs : List Stimulus) : Inv (collected [0x75, 0x65, 0x80, 0x00, 0x5A] xs) :=
  inv_collected xs (by decide) (by decide) rfl rfl fun _ => ⟨0, rfl, by decide⟩

/-- 260 bytes of the longest frame, one to go. -/
def longFront : List Byte := [0x75, 0x65, 0x80, 0xFF] ++ List.replicate 256 0

theorem longFront_length : longFront.length = 260 := by simp only [longFront, List.length_append, List.length_replicate]; rfl

theorem inv_longFront (xs : List Stimulus) : Inv (collected longFront xs) :=
  inv_collected xs (by rw [longFront_length]; decide) (by rw [longFront_length]) rfl rfl
    fun _ => ⟨0xFF, rfl, by rw [longFront_length]; decide⟩

theorem witness_ResetEventClearsRegisters : (waiting [.reset]).stimuli = .reset :: [] := rfl

theorem witness_StepRunsDecoded :
    let s := waiting [.request 0x1 { b := 0x75 }]
    s.stimuli = .request 0x1 { b := 0x75 } :: [] ∧ decode s.synState (.request 0x1 { b := 0x75 }) = .ok (.cksUpd 0x75) ∧
      Instr.wf (.cksUpd 0x75) = true := ⟨rfl, rfl, rfl⟩

/-- A length byte of 0 and of 1, a field with no data, and one with the least that carries some; a descriptor with no shape, a
command set, a set outside the enumeration, and a field cut short. -/
theorem witness_StimulusSelectsOperation :
    ([] : List Byte).length = (0 : Byte).toNat - 2 ∧ ([] : List Byte).length = (1 : Byte).toNat - 2 ∧
    (0 : Byte).toNat < 2 ∧ (1 : Byte).toNat < 2 ∧ ([] : List Byte).length = (2 : Byte).toNat - 2 ∧ 2 ≤ (2 : Byte).toNat ∧
    ([0] : List Byte).length = (3 : Byte).toNat - 2 ∧ (0x05 : Byte) ≠ 0x04 ∧ (0x05 : Byte) ≠ 0xD3 ∧
    (0x13 : Byte) ∈ Config.commandSets ∧ (0x55 : Byte) ∉ Config.dsEnum ∧
    ([] : List Byte).length < (3 : Byte).toNat - 2 := by decide

theorem witness_DecodeOfEncode :
    Instr.wf (.extRaw 0x01 0xF1 [0x02, 0x00]) = true ∧
    (keyState (.extRaw 0x01 0xF1 [0x02, 0x00])).getD .synced = .synced ∧
    Instr.wf (.rxcByte 0) = true ∧ (keyState (.rxcByte 0)).getD .synced = .synced := by decide

theorem witness_DecodedIsWellFormed : decode .synced (.rxByte 0x65) = .ok (.rxcByte 0x65) := rfl

theorem witness_ChecksumIncremental :
    let s : State := { State.reset with cksA := 0xDA, cksB := 0x4F }
    s.cksA = (cks [0x75, 0x65]).1 ∧ s.cksB = (cks [0x75, 0x65]).2 := by decide

/-- The first covered byte, the last, and the last trailer byte of `F_EMPTY80`. -/
theorem witness_SingleBitFlipDetected : 2 ≤ 6 ∧ 6 ≤ fEmpty.length ∧ 0 < 8 ∧ 7 < 8 ∧ 0 + 2 < 6 ∧ 3 + 2 < 6 ∧ 5 < 6 ∧
    cksCheck fEmpty 6 = true := by decide

theorem witness_MarkerMatching :
    let s : State := { State.reset with synHalf := true }
    State.reset.synHalf = false ∧ (0x75 : Byte) = 0x75 ∧ (0x65 : Byte) ≠ 0x75 ∧
      s.synHalf = true ∧ (0x65 : Byte) = 0x65 ∧ (0x75 : Byte) ≠ 0x65 := by decide

theorem witness_FailedPairDiscarded : (0x75 : Byte) ≠ 0x65 ∧ State.reset.synHalf = false := by decide

theorem witness_ResyncTakesTwoBytes :
    let s := waiting [.rxByte 0x75, .rxByte 0x65]
    s.synState = .scanning ∧ s.synHalf = false ∧ s.stimuli = .rxByte 0x75 :: .rxByte 0x65 :: [] := ⟨rfl, rfl, rfl⟩

/-- `RX_IDX` 2 (fewer than four bytes), 3 (the length byte arrives, two more to come at least). -/
theorem witness_CollectByte_goesOn :
    let s := collected [0x75, 0x65] []
    let t := collected [0x75, 0x65, 0x80] []
    s.rxIdx.toNat < 261 ∧ (∀ a < s.rxIdx.toNat, (memRead s.rxBuf a).isSome) ∧ s.rxIdx.toNat + 1 < 4 ∧
    t.rxIdx.toNat < 261 ∧ (∀ a < t.rxIdx.toNat, (memRead t.rxBuf a).isSome) ∧
      memRead (memWrite t.rxBuf t.rxIdx.toNat 0x00) 3 = some 0x00 ∧ t.rxIdx.toNat + 1 ≠ (0x00 : Byte).toNat + 6 := by decide

/-- The last byte of the shortest frame. -/
theorem witness_CollectByte_completes :
    let s := collected [0x75, 0x65, 0x80, 0x00, 0x5A] []
    s.rxIdx.toNat < 261 ∧ (∀ a < s.rxIdx.toNat, (memRead s.rxBuf a).isSome) ∧ 4 ≤ s.rxIdx.toNat + 1 ∧
      memRead (memWrite s.rxBuf s.rxIdx.toNat 0x03) 3 = some 0x00 ∧ s.rxIdx.toNat + 1 = (0x00 : Byte).toNat + 6 := by decide

/-- A reachable state in which a completion posts an error. -/
theorem witness_CollectByte_invariant : ∃ t, Inv (collected [0x75, 0x65, 0x80, 0x00, 0x5A] []) ∧
    (collected [0x75, 0x65, 0x80, 0x00, 0x5A] []).synState = .synced ∧
    exec (.rxcByte 0x03) (collected [0x75, 0x65, 0x80, 0x00, 0x5A] []) = .next t ∧
    t.errors = [.unexpectedDescriptorSet 0x80] := ⟨_, inv_almostEmpty [], rfl, rfl, by decide⟩

/-- Reachable states: reset, a frame begun, and the greatest `RX_IDX`, 260. -/
theorem witness_NoBufferFaultUnderInv :
    Inv (waiting []) ∧ (waiting []).stimuli = [] ∧ Inv (collected [0x75, 0x65, 0x80, 0x00, 0x5A] [.rxByte 0x03]) ∧
    Inv (collected longFront []) ∧ (collected longFront []).synState = .synced ∧
    (collected longFront []).rxIdx.toNat = 260 :=
  ⟨inv_waiting _, rfl, inv_almostEmpty _, inv_longFront _, rfl, by simp only [collected, longFront_length]; decide⟩

/-- States the invariant excludes: `RX_IDX` 261 and the greatest nine bits hold; 4 and 260 with no length byte. -/
theorem witness_NoBufferFaultUnderInv_outside :
    261 ≤ (261 : BitVec 9).toNat ∧ 261 ≤ (511 : BitVec 9).toNat ∧ 4 ≤ (4 : BitVec 9).toNat ∧
    4 ≤ (260 : BitVec 9).toNat ∧ (260 : BitVec 9).toNat < 261 ∧ memRead State.reset.rxBuf 3 = none := by decide

/-- One run that posts nothing and one that posts an error. -/
theorem witness_StreamModeErrors :
    (∃ t, Inv (collected [0x75, 0x65, 0x80, 0x00, 0x5A] []) ∧
      exec (.rxcByte 0x04) (collected [0x75, 0x65, 0x80, 0x00, 0x5A] []) = .next t) ∧
    ∃ t, Inv (collected [0x75, 0x65] []) ∧ exec (.rxcByte 0x04) (collected [0x75, 0x65] []) = .next t :=
  ⟨⟨_, inv_almostEmpty [], rfl⟩,
   ⟨_, inv_collected [] (by decide) (by decide) rfl rfl fun h => absurd h (by decide), rfl⟩⟩

/-- A state for each row of the table: both values of `SYN_HALF`, a frame that goes on, one that ends, at both lengths. -/
theorem witness_ReceivePathTransitions :
    (Inv (waiting [.rxByte 0x75]) ∧ (waiting [.rxByte 0x75]).synState = .scanning ∧
      (waiting [.rxByte 0x75]).synHalf = false) ∧
    Inv { waiting [.rxByte 0x65] with synHalf := true } ∧ Inv (collected [0x75, 0x65, 0x80, 0x00, 0x5A] [.rxByte 0x03]) ∧
    Inv (collected longFront [.rxByte 0x00]) ∧ (collected longFront [.rxByte 0x00]).rxIdx.toNat + 1 = 255 + 6 ∧
    Inv (collected [0x75, 0x65, 0x80, 0x00, 0x5A] [.rxDeadline]) ∧
    Inv (collected [0x75, 0x65, 0x80, 0x00, 0x5A] [.request 0x4 {}]) :=
  ⟨⟨inv_waiting _, rfl, rfl⟩, inv_half _, inv_almostEmpty _, inv_longFront _,
    by simp only [collected, longFront_length]; decide, inv_almostEmpty _, inv_almostEmpty _⟩

/-- The shortest frame and one with the greatest length byte. -/
theorem witness_StreamedFrameDecodedOnce :
    let s := waiting (fEmpty.map .rxByte)
    s.synState = .scanning ∧ s.synHalf = false ∧ s.stimuli = fEmpty.map .rxByte ++ [] ∧ 6 ≤ fEmpty.length ∧
      fEmpty.length = announced fEmpty + 6 ∧ byteAt fEmpty 0 = 0x75 ∧ byteAt fEmpty 1 = 0x65 ∧
      (longFront ++ [0]).length = announced (longFront ++ [0]) + 6 :=
  ⟨rfl, rfl, rfl, by decide, by decide, rfl, rfl, by rw [List.length_append, longFront_length]; rfl⟩

theorem holds_fEmpty : HoldsFrame fEmpty := by unfold HoldsFrame; decide

theorem matches_fEmpty : TrailerMatches fEmpty := by unfold TrailerMatches; decide

theorem passes_fAcc : PassesHeader fAcc 0x80 :=
  ⟨by unfold HoldsFrame; decide, by unfold TrailerMatches; decide, rfl, by decide⟩

theorem passes_fEmpty : PassesHeader fEmpty 0x80 := ⟨holds_fEmpty, matches_fEmpty, rfl, by decide⟩

/-- `F_EMPTY80` with a right and with a wrong trailer. -/
theorem witness_ChecksumCheck : HoldsFrame fEmpty ∧ TrailerMatches fEmpty ∧
    HoldsFrame [0x75, 0x65, 0x80, 0x00, 0x5A, 0x04] ∧ ¬ TrailerMatches [0x75, 0x65, 0x80, 0x00, 0x5A, 0x04] :=
  ⟨holds_fEmpty, matches_fEmpty, by unfold HoldsFrame; decide, by unfold TrailerMatches; decide⟩

/-- Another set than expected; the expected set but outside the enumeration (V-DEC-8); the expected and legal one. -/
theorem witness_DescriptorSetCheck : HoldsFrame fEmpty ∧ TrailerMatches fEmpty ∧ byteAt fEmpty 2 ≠ 0x0C ∧
    byteAt fEmpty 2 = 0x80 ∧ (0x80 : Byte) ∈ Config.dsEnum ∧
    HoldsFrame [0x75, 0x65, 0x55, 0x00, 0x2F, 0xAD] ∧ TrailerMatches [0x75, 0x65, 0x55, 0x00, 0x2F, 0xAD] ∧
    byteAt [0x75, 0x65, 0x55, 0x00, 0x2F, 0xAD] 2 ∉ Config.dsEnum :=
  ⟨holds_fEmpty, matches_fEmpty, by decide, rfl, by decide, by unfold HoldsFrame; decide,
    by unfold TrailerMatches; decide, by decide⟩

theorem witness_WalkAcceptsExactlyFields : (payload fAcc).length ≤ 14 ∧ ([] : List Byte).length ≤ 0 := by decide

/-- V-DEC-10b's frame: one whole field, then one byte. -/
theorem witness_FirstFailingFieldDecides_left : PassesHeader [0x75, 0x65, 0x80, 0x03, 0x02, 0x04, 0x07, 0x6A, 0x32] 0x80 ∧
    payload [0x75, 0x65, 0x80, 0x03, 0x02, 0x04, 0x07, 0x6A, 0x32] = serializeFields [(0x04, [])] ++ [0x07] ∧
    ∀ f ∈ ([(0x04, [])] : List (Byte × List Byte)), FieldPasses (only 4) f :=
  ⟨⟨by unfold HoldsFrame; decide, by unfold TrailerMatches; decide, rfl, by decide⟩, by decide,
    by unfold FieldPasses; decide⟩

/-- V-DEC-9's and V-DEC-10's frames: a length below 2, and one beyond the payload. -/
theorem witness_FirstFailingFieldDecides_length :
    PassesHeader [0x75, 0x65, 0x80, 0x02, 0x00, 0x04, 0x60, 0xC1] 0x80 ∧
    payload [0x75, 0x65, 0x80, 0x02, 0x00, 0x04, 0x60, 0xC1] = serializeFields [] ++ [0x00, 0x04] ∧ (0x00 : Byte).toNat < 2 ∧
    PassesHeader [0x75, 0x65, 0x80, 0x03, 0x05, 0x04, 0x00, 0x66, 0x34] 0x80 ∧
    payload [0x75, 0x65, 0x80, 0x03, 0x05, 0x04, 0x00, 0x66, 0x34] = serializeFields [] ++ [0x05, 0x04, 0x00] ∧
    ([0x00] : List Byte).length + 2 < (0x05 : Byte).toNat :=
  ⟨⟨by unfold HoldsFrame; decide, by unfold TrailerMatches; decide, rfl, by decide⟩, by decide, by decide,
   ⟨by unfold HoldsFrame; decide, by unfold TrailerMatches; decide, rfl, by decide⟩, by decide, by decide⟩

/-- V-DEC-11's frame: a whole field that is not expected. -/
theorem witness_FirstFailingFieldDecides_unexpected : PassesHeader fAcc 0x80 ∧
    payload fAcc = serializeFields [] ++ 0x0E :: 0x04 :: accData ∧ 2 ≤ (0x0E : Byte).toNat ∧
    (0x0E : Byte).toNat ≤ accData.length + 2 ∧ expects (only 0xD3) 0x04 = false :=
  ⟨passes_fAcc, by decide, by decide, by decide, by decide⟩

/-- `F_EMPTY80`: a payload of no field, nothing left over. -/
theorem witness_FirstFailingFieldDecides_none : PassesHeader fEmpty 0x80 ∧ payload fEmpty = serializeFields [] ++ [] :=
  ⟨passes_fEmpty, by decide⟩

/-- V-DEC-12's frame beside `F_EMPTY80`. -/
theorem witness_SyncBytesCheckedFifth :
    PassesHeader [0x00, 0x00, 0x80, 0x00, 0x80, 0x00] 0x80 ∧
    payload [0x00, 0x00, 0x80, 0x00, 0x80, 0x00] = serializeFields [] ∧
    byteAt [0x00, 0x00, 0x80, 0x00, 0x80, 0x00] 0 ≠ 0x75 ∧ PassesHeader fEmpty 0x80 ∧
    payload fEmpty = serializeFields [] ∧ byteAt fEmpty 0 = 0x75 ∧ byteAt fEmpty 1 = 0x65 :=
  ⟨⟨by unfold HoldsFrame; decide, by unfold TrailerMatches; decide, rfl, by decide⟩, by decide, by decide,
    passes_fEmpty, by decide, rfl, rfl⟩

/-- `F_ACC`, whose field has a value, and V-DEC-13's frame, whose field has none. -/
theorem witness_InterpretationAfterChecks :
    PassesHeader fAcc 0x80 ∧ payload fAcc = serializeFields [(0x04, accData)] ∧
    (∀ f ∈ [(0x04, accData)], FieldPasses (only 4) f) ∧ byteAt fAcc 0 = 0x75 ∧ byteAt fAcc 1 = 0x65 ∧
    [(0x04, accData)].map (fun f => extract 0x80 f.1 f.2 false) =
      ([.accel 0xBDCCCCCD 0x00000000 0x3F800000 false] : List TypedField).map some ∧
    PassesHeader [0x75, 0x65, 0x80, 0x04, 0x04, 0x05, 0x01, 0x02, 0x6A, 0xA2] 0x80 ∧
    payload [0x75, 0x65, 0x80, 0x04, 0x04, 0x05, 0x01, 0x02, 0x6A, 0xA2] = serializeFields ([] ++ [(0x05, [0x01, 0x02])]) ∧
    FieldPasses (only 5) (0x05, [0x01, 0x02]) ∧ extract 0x80 0x05 [0x01, 0x02] false = none :=
  ⟨passes_fAcc, by decide, by unfold FieldPasses; decide, rfl, rfl, by decide,
   ⟨by unfold HoldsFrame; decide, by unfold TrailerMatches; decide, rfl, by decide⟩, by decide,
   by unfold FieldPasses; decide, by decide⟩

theorem witness_EmptyFrameDecodes : PassesHeader fEmpty 0x80 ∧ announced fEmpty = 0 ∧ byteAt fEmpty 0 = 0x75 ∧
    byteAt fEmpty 1 = 0x65 := ⟨passes_fEmpty, rfl, rfl, rfl⟩

/-- V-DEC-17's buffer. -/
theorem witness_BytesBeyondFrameIgnored : HoldsFrame (fAcc ++ [0xAA, 0xBB]) := by unfold HoldsFrame; decide

/-- V-DEC-18's frame from the builder, and V-BLD-5's. -/
theorem witness_BuiltFrameRoundTrips :
    build 0x01 [(0xF1, [0x02, 0x00])] = .ok fAck ∧ (∀ p ∈ [((0xF1 : Byte), ([0x02, 0x00] : List Byte))], expects (only 0xF1) p.1 = true) ∧
    (0x01 : Byte) ∈ Config.commandSets ∧ build 0x80 [(0x04, accData)] = .ok fAcc ∧
    ∀ p ∈ [((0x04 : Byte), accData)], expects (only 4) p.1 = true := by decide

/-- A field stimulus for each clause: cut short, no shape, a reserved length at 0 and at 1, a set outside the enumeration. -/
theorem witness_ExtractionSteps :
    (waiting [.field (fieldKey 0x01 0x03 0xF1) []]).stimuli = .field (fieldKey 0x01 0x03 0xF1) [] :: [] ∧
    ([] : List Byte).length < (0x03 : Byte).toNat - 2 ∧
    (waiting [.field (fieldKey 0x80 0x02 0x05) []]).stimuli = .field (fieldKey 0x80 0x02 0x05) [] :: [] ∧
    (0x02 : Byte).toNat - 2 ≤ ([] : List Byte).length ∧ (0x05 : Byte) ≠ 0x04 ∧ (0x05 : Byte) ≠ 0xD3 ∧
    (waiting [.field (fieldKey 0x0C 0x01 0xF1) []]).stimuli = .field (fieldKey 0x0C 0x01 0xF1) [] :: [] ∧
    (0x01 : Byte).toNat - 2 ≤ ([] : List Byte).length ∧ (0x00 : Byte).toNat - 2 ≤ ([] : List Byte).length ∧
    (0x0C : Byte) ∈ Config.commandSets ∧ (0x01 : Byte).toNat < 2 ∧ (0x00 : Byte).toNat < 2 ∧
    (waiting [.field (fieldKey 0x55 0x02 0x01) []]).stimuli = .field (fieldKey 0x55 0x02 0x01) [] :: [] ∧
    (0x55 : Byte) ∉ Config.dsEnum := by decide

/-- One byte fewer and one more than the twelve; one fewer than the ten. -/
theorem witness_AccelReading_GpsTimeReading : (List.replicate 11 (0 : Byte)).length ≠ 12 ∧ (List.replicate 13 (0 : Byte)).length ≠ 12 ∧
    (List.replicate 9 (0 : Byte)).length < 10 := by decide

theorem witness_UnsupportedInThreeCases : (0x80 : Byte) ∈ Config.dsEnum ∧ (0x13 : Byte) ∈ Config.dsEnum ∧
    (0x13 : Byte) ∈ Config.commandSets := by decide

/-- One field of 253 bytes: both bounds met exactly. -/
theorem witness_BuildEmitsOrRefuses_emits : (0x0C : Byte) ∈ Config.dsEnum ∧
    (∀ f ∈ [((0x11 : Byte), List.replicate 253 (0 : Byte))], f.2.length ≤ 253) ∧
    ([((0x11 : Byte), List.replicate 253 (0 : Byte))].map fun f => 2 + f.2.length).sum ≤ 255 := by
  refine ⟨by decide, ?_, ?_⟩ <;> simp only [List.mem_singleton, forall_eq, List.map_cons, List.map_nil, List.length_replicate] <;> decide

/-- V-BLD-6, V-BLD-8 and V-BLD-9's operands. -/
theorem witness_BuildEmitsOrRefuses_refuses : (0x55 : Byte) ∉ Config.dsEnum ∧ (0x0C : Byte) ∈ Config.dsEnum ∧
    (∀ p ∈ [((0x01 : Byte), ([] : List Byte))], p.2.length ≤ 253) ∧ 253 < (List.replicate 254 (0 : Byte)).length ∧
    (∀ p ∈ [((0x01 : Byte), List.replicate 126 (0 : Byte)), (0x02, List.replicate 126 0)], p.2.length ≤ 253) ∧
    255 < ([((0x01 : Byte), List.replicate 126 (0 : Byte)), (0x02, List.replicate 126 0)].map fun f => 2 + f.2.length).sum := by
  simp only [List.mem_cons, List.not_mem_nil, or_false, forall_eq_or_imp, forall_eq, List.map_cons, List.map_nil,
    List.length_replicate]
  decide

theorem witness_BuiltFrameWellFormed : build 0x0C [] = .ok [0x75, 0x65, 0x0C, 0x00, 0xE6, 0x1B] := by decide

/-- With no payload the field fits whatever the table's prefixes are; 254 bytes fit no field. -/
theorem witness_PayloadTemplatesSendFrame (t : TemplateName) :
    (Config.template t).pre.length + ([] : List Byte).length ≤ 253 ∧
    ¬ (Config.template t).pre.length + (List.replicate 254 (0 : Byte)).length ≤ 253 := by
  rw [List.length_replicate]
  constructor
  · simp only [Config.template, List.length_take, Config.maxFieldData, List.length_nil]
    omega
  · omega

theorem witness_StepKeepsInv : ∃ t, Inv (collected [0x75, 0x65, 0x80, 0x00, 0x5A] [.rxByte 0x03]) ∧
    step (collected [0x75, 0x65, 0x80, 0x00, 0x5A] [.rxByte 0x03]) = .next t := ⟨_, inv_almostEmpty _, rfl⟩

theorem witness_EngineNeverHalts :
    let s := collected [0x75, 0x65, 0x80, 0x00, 0x5A] [.rxByte 0x03]
    Inv s ∧ s.stimuli = .rxByte 0x03 :: [] ∧ ∀ key data, Stimulus.rxByte 0x03 ≠ .field key data :=
  ⟨inv_almostEmpty _, rfl, fun _ _ h => by cases h⟩

/-- A field stimulus in a state that meets the invariant. -/
theorem witness_EngineNeverHalts_field :
    Inv (waiting [.field 0x550201 []]) ∧ (waiting [.field 0x550201 []]).stimuli = .field 0x550201 [] :: [] :=
  ⟨inv_waiting _, rfl⟩

/-- A step that posts an error: it serves the three statements about any step. -/
theorem witness_steps : ∃ t, step (waiting [.rxDeadline]) = .next t ∧ t.errors = [.syncTimeout] := ⟨_, rfl, rfl⟩

/-- An operation outside the port, and one that writes each register. -/
theorem witness_operations : (∃ t, exec (.synByte 0x75) State.reset = .next t) ∧ usesChecksumPort (.synByte 0x75) = false ∧
    sendsFrame (.synByte 0x75) = false ∧ (∃ t, exec (.bldBuild 0x0C []) State.reset = .next t) ∧
    sendsFrame (.bldBuild 0x0C []) = true ∧ ∀ v, Instr.synByte 0x75 ≠ .cfgWr .expDs v :=
  ⟨⟨_, rfl⟩, rfl, rfl, ⟨_, rfl⟩, rfl, fun _ h => by cases h⟩

theorem witness_ErrorCodesAndWhoRaisesThem :
    let s : State := { waiting [.rxDeadline] with errors := [.ackMismatch] }
    ∃ t, step s = .next t ∧ ErrorEvent.ackMismatch ∈ t.errors := ⟨_, rfl, by decide⟩

/-- An error posted by an operation of each group. -/
theorem witness_ErrorCodesAndWhoRaisesThem_posted :
    (∃ t, exec .synDeadline State.reset = .next t ∧ t.errors = State.reset.errors ++ [.syncTimeout]) ∧
    (∃ t, exec .rxcDeadline State.reset = .next t ∧ t.errors = State.reset.errors ++ [.truncatedFrame]) ∧
    (∃ t, exec (.rxcByte 0x03) (collected [0x75, 0x65, 0x80, 0x00, 0x5A] []) = .next t ∧
      t.errors = [] ++ [.unexpectedDescriptorSet 0x80]) ∧
    ∃ t, exec (.bldBuild 0x55 []) State.reset = .next t ∧ t.errors = State.reset.errors ++ [.badDescriptorSet 0x55] :=
  ⟨⟨_, rfl, rfl⟩, ⟨_, rfl, rfl⟩, ⟨_, rfl, by decide⟩, ⟨_, rfl, rfl⟩⟩

/-- A store at the marker's cells, one at `RX_IDX`, and an address outside each. -/
theorem witness_ReceiveBufferFrame :
    (∃ t, exec (.synByte 0x65) { State.reset with synHalf := true } = .next t) ∧
    2 ∉ storesRx (.synByte 0x65) { State.reset with synHalf := true } ∧
    (∃ t, exec (.rxcByte 0x80) (collected [0x75, 0x65] []) = .next t) ∧
    1 ∉ storesRx (.rxcByte 0x80) (collected [0x75, 0x65] []) ∧ 3 ∉ storesRx (.rxcByte 0x80) (collected [0x75, 0x65] []) :=
  ⟨⟨_, rfl⟩, by decide, ⟨_, rfl⟩, by decide, by decide⟩

end Sys2Proof.Tests
end

section
/-! The two directions of the engine (00_scope.md R4), each as one tuple of state fields: no operation but a build touches the
transmit side, and a build touches nothing of the receive side. -/

namespace Sys2Proof.Machine

/-- The transmit stream and its scratch (10_state.md R29, R35 b). -/
def transmitSide (s : State) : List Byte × Memory × BitVec 9 := (s.txStream, s.txBuf, s.txLen)

/-- The receive path, the records and the values returned to requesters (10_state.md R25 to R29, R35 c; log entry 3). -/
def receiveSide (s : State) : SynState × Bool × BitVec 9 × Memory × List Record × List Response :=
  (s.synState, s.synHalf, s.rxIdx, s.rxBuf, s.records, s.responses)

theorem transmitSide_eq_iff {s t : State} : transmitSide t = transmitSide s ↔
    t.txStream = s.txStream ∧ t.txBuf = s.txBuf ∧ t.txLen = s.txLen := by
  simp [transmitSide]

theorem receiveSide_eq_iff {s t : State} : receiveSide t = receiveSide s ↔
    t.synState = s.synState ∧ t.synHalf = s.synHalf ∧ t.rxIdx = s.rxIdx ∧ t.rxBuf = s.rxBuf ∧
    t.records = s.records ∧ t.responses = s.responses := by
  simp [receiveSide]

@[simp] theorem transmitSide_matchMarker (b : Byte) (s : State) : transmitSide (matchMarker b s) = transmitSide s := by
  rcases matchMarker_cases b s with ⟨-, -, h⟩ | ⟨-, -, h⟩ | ⟨-, -, h⟩ | ⟨-, -, h⟩ <;> simp [h, transmitSide]

@[simp] theorem transmitSide_writeReg (reg : Reg) (v : BitVec 256) (s : State) :
    transmitSide (writeReg reg v s) = transmitSide s := by
  cases reg <;> rfl

@[simp] theorem transmitSide_postResult (r : DecodeResult) (s : State) :
    transmitSide (postResult r s) = transmitSide s := by
  cases r <;> rfl

@[simp] theorem receiveSide_runBuild (ds : Byte) (fields : List (Byte × List Byte)) (s : State) :
    receiveSide (runBuild ds fields s) = receiveSide s := by
  rcases runBuild_cases ds fields s with ⟨f, -, h⟩ | ⟨e, -, h⟩ <;> simp [h, receiveSide]

/-- An operation that sends a frame is one build (30_encoding.md R102, 47_command_templates.md R211). -/
theorem exec_eq_runBuild_of_sendsFrame {i : Instr} (hi : sendsFrame i = true) (s : State) :
    ∃ ds fields, exec i s = .next (runBuild ds fields s) := by
  cases i with
  | bldBuild _ _ | cmdIdle | cmdResume | cmdPpsSource _ | cmdPpsPulse _ | cmdGnssOffset _ _ _ | cmdMsgFormat _ _ _
  | cmdStreamEn _ | cmdPoll _ => exact ⟨_, _, rfl⟩
  | _ => cases hi

theorem exec_keeps_receiveSide {i : Instr} {s t : State} (hi : sendsFrame i = true) (h : exec i s = .next t) :
    receiveSide t = receiveSide s := by
  obtain ⟨ds, fields, hb⟩ := exec_eq_runBuild_of_sendsFrame hi s
  rw [hb] at h
  cases h
  exact receiveSide_runBuild ds fields s

theorem exec_keeps_transmitSide {i : Instr} {s t : State} (hi : sendsFrame i = false) (h : exec i s = .next t) :
    transmitSide t = transmitSide s := by
  cases i with
  | bldBuild _ _ | cmdIdle | cmdResume | cmdPpsSource _ | cmdPpsPulse _ | cmdGnssOffset _ _ _ | cmdMsgFormat _ _ _
  | cmdStreamEn _ | cmdPoll _ => cases hi
  | synByte b => cases h; exact transmitSide_matchMarker b s
  | cfgWr reg v => cases h; exact transmitSide_writeReg reg v s
  | rxcByte b =>
    obtain ⟨-, ⟨rfl, -⟩ | ⟨-, buf, -, rfl⟩⟩ := execRxcByte_next h
    · rfl
    · exact transmitSide_postResult _ _
  | _ => cases h; rfl

/-- Settles O58: the senders are builds, which keep the receive side, and every other operation keeps the transmit side. -/
theorem directionsNeverMix : Obligations.DirectionsNeverMix := by
  unfold Obligations.DirectionsNeverMix
  intro i s t h
  exact ⟨fun hi => transmitSide_eq_iff.1 (exec_keeps_transmitSide hi h),
    fun hi => receiveSide_eq_iff.1 (exec_keeps_receiveSide hi h)⟩

end Sys2Proof.Machine
end

section
/-! What the stimulus fixes of the operation it selects, and a step in terms of the stimulus that waits. -/

namespace Sys2Proof.Machine

/-- A receive operation is selected only in the `SYN_STATE` its key names (30_encoding.md R103, R104). -/
theorem decode_keyState {st : SynState} {x : Stimulus} {i : Instr} (h : decode st x = .ok i) :
    (keyState i).getD st = st := by
  cases x with
  | rxByte b => cases st <;> cases h <;> rfl
  | rxDeadline => cases st <;> cases h <;> rfl
  | request opsel o =>
    cases h
    unfold decodeRequest
    split <;> rfl
  | template t o => cases t <;> cases h <;> rfl
  | field key data =>
    obtain ⟨-, ⟨-, rfl⟩ | ⟨-, rfl⟩ | ⟨-, -, rfl⟩⟩ := decodeField_next h <;> rfl
  | reset => cases h

/-- Beside the fields, the `reset` event is the one stimulus that selects no operation (30_encoding.md R103). -/
theorem decode_error_of_not_field {st : SynState} {x : Stimulus} {r : Reject} (hx : ∀ key data, x ≠ .field key data)
    (h : decode st x = .error r) : r = .resetEvent := by
  cases x with
  | rxByte b => cases st <;> cases h
  | rxDeadline => cases st <;> cases h
  | request opsel o => cases h
  | template t o => cases h
  | field key data => exact absurd rfl (hx key data)
  | reset => cases h; rfl

theorem step_of_decode_ok {s : State} {x : Stimulus} {rest : List Stimulus} {i : Instr} (hs : s.stimuli = x :: rest)
    (hd : decode s.synState x = .ok i) : step s = exec i { s with stimuli := rest } := by
  simp [step, fetch_eq_some.2 ⟨rest, hs, rfl⟩, hd]

theorem step_of_decode_error {s : State} {x : Stimulus} {rest : List Stimulus} {r : Reject}
    (hs : s.stimuli = x :: rest) (hd : decode s.synState x = .error r) :
    step s = offTable r { s with stimuli := rest } := by
  simp [step, fetch_eq_some.2 ⟨rest, hs, rfl⟩, hd]

/-- Settles O4: the consumed stimulus is the first one, and what it decodes to is run. -/
theorem stepRunsDecoded : Obligations.StepRunsDecoded := by
  unfold Obligations.StepRunsDecoded
  intro s x rest i hs hd _
  exact step_of_decode_ok hs hd

end Sys2Proof.Machine
end

section
/-! The invariant of 10_state.md R37, one lemma per named update of the state, then per operation, then per step. -/

namespace Sys2Proof.Machine

theorem inv_reset : Inv State.reset := by
  refine ⟨fun _ => rfl, nofun, ?_, ?_, ?_, ?_, rfl⟩ <;> simp [State.reset, Memory.wf, Memory.within]

theorem inv_resetEvent (s : State) : Inv (resetEvent s) := inv_congr inv_reset rfl rfl rfl rfl rfl rfl

theorem inv_respond {s : State} (r : Response) (h : Inv s) : Inv (respond r s) := inv_congr h rfl rfl rfl rfl rfl rfl

theorem inv_raiseError {s : State} (e : ErrorEvent) (h : Inv s) : Inv (raiseError e s) :=
  inv_congr h rfl rfl rfl rfl rfl rfl

theorem inv_setCks {s : State} (ab : Byte × Byte) (h : Inv s) : Inv (setCks ab s) :=
  inv_congr h rfl rfl rfl rfl rfl rfl

theorem inv_setStimuli {s : State} (xs : List Stimulus) (h : Inv s) : Inv { s with stimuli := xs } :=
  inv_congr h rfl rfl rfl rfl rfl rfl

theorem inv_postResult {s : State} (r : DecodeResult) (h : Inv s) : Inv (postResult r s) := by
  obtain ⟨hst, hhalf, hidx, hrx, htx, hcfg, -⟩ := postResult_frame r s
  exact inv_congr h hst hhalf hidx hrx htx hcfg

theorem inv_toScanning {s : State} (h : Inv s) : Inv (toScanning s) :=
  ⟨fun _ => rfl, nofun, h.rxWf, h.rxWithin, h.txWf, h.txWithin, h.reserved⟩

/-- A half match can be dropped in either state and noted in Scanning (10_state.md R37: none in Synced). -/
theorem inv_setHalf {s : State} {b : Bool} (h : Inv s) (hb : s.synState = .synced → b = false) : Inv (setHalf b s) := by
  refine ⟨h.scanning, fun hs => ?_, h.rxWf, h.rxWithin, h.txWf, h.txWithin, h.reserved⟩
  obtain ⟨-, hrest⟩ := h.synced hs
  exact ⟨hb hs, hrest⟩

/-- Bits 7:1 of a value written to `CFG` are dropped (48_system_ops.md R233). -/
theorem cfgWritten_reserved (v : BitVec 256) : cfgWritten v &&& 0xFE = 0 := by
  rw [cfgWritten, BitVec.and_assoc]
  exact BitVec.and_zero

theorem inv_writeReg {s : State} (reg : Reg) (v : BitVec 256) (h : Inv s) : Inv (writeReg reg v s) := by
  cases reg with
  | cfg => exact ⟨h.scanning, h.synced, h.rxWf, h.rxWithin, h.txWf, h.txWithin, cfgWritten_reserved v⟩
  | expDs => exact inv_congr h rfl rfl rfl rfl rfl rfl
  | expFd => exact inv_congr h rfl rfl rfl rfl rfl rfl
  | status => exact h

theorem inv_dropScratch {s : State} (h : Inv s) : Inv (dropScratch s) :=
  ⟨h.scanning, h.synced, h.rxWf, h.rxWithin, scratchCells_wf _, scratchCells_within _, h.reserved⟩

theorem inv_runBuild {s : State} (ds : Byte) (fields : List (Byte × List Byte)) (h : Inv s) :
    Inv (runBuild ds fields s) := by
  rcases runBuild_cases ds fields s with ⟨f, -, hr⟩ | ⟨e, -, hr⟩ <;> rw [hr]
  · exact inv_congr (inv_dropScratch h) rfl rfl rfl rfl rfl rfl
  · exact inv_raiseError e h

/-- Right after a match the marker's two cells are the whole frame collected (42_synchronizer.md R129). -/
theorem syncedInv_enterSynced (s : State) : SyncedInv (enterSynced s) := by
  have h0 : rxRead (enterSynced s) 0 = some Config.sync0 := by
    simp [rxRead, memRead_memWrite_other]
  have h1 : rxRead (enterSynced s) 1 = some Config.sync1 := by
    simp [rxRead]
  refine ⟨rfl, by simp, h0, h1, fun a ha => ?_, fun h4 => by simp at h4⟩
  match a, ha with
  | 0, _ => simp [h0]
  | 1, _ => simp [h1]
  | a + 2, ha => simp at ha

theorem inv_enterSynced {s : State} (h : Inv s) : Inv (enterSynced s) :=
  ⟨nofun, fun _ => syncedInv_enterSynced s, memWrite_wf _ _ _ (memWrite_wf _ _ _ h.rxWf),
    memWrite_within _ _ _ (memWrite_within _ _ _ h.rxWithin (by decide)) (by decide), h.txWf, h.txWithin, h.reserved⟩

theorem inv_matchMarker {s : State} (b : Byte) (h : Inv s) (hs : s.synState = .scanning) : Inv (matchMarker b s) := by
  rcases matchMarker_cases b s with ⟨-, -, hm⟩ | ⟨-, -, hm⟩ | ⟨-, -, hm⟩ | ⟨-, -, hm⟩ <;> rw [hm]
  · exact h
  · exact inv_setHalf h fun hsync => by rw [hs] at hsync; cases hsync
  · exact inv_enterSynced h
  · exact inv_setHalf h fun _ => rfl

/-- A cell collected before is not touched by the next store (43_collector.md R142). -/
theorem rxRead_storeRx_below {s : State} (b : Byte) {a : Nat} (h : s.rxIdx.toNat < 261) (ha : a < s.rxIdx.toNat) :
    rxRead (storeRx b s) a = rxRead s a := by
  rw [rxRead_storeRx b h (by omega), memRead_memWrite_other _ _ (by omega), rxRead, if_pos ha]

/-- A byte stored in Synced that does not complete the frame leaves it with at least one byte to come. -/
theorem syncedInv_storeRx {s : State} (b : Byte) (h : SyncedInv s) (hd : ¬ FrameDone (storeRx b s)) :
    SyncedInv (storeRx b s) := by
  have hlt := syncedInv_idx h
  have hcells := syncedInv_cells h
  obtain ⟨hhalf, h2, h0, h1, -, hmore⟩ := h
  have hidx : (storeRx b s).rxIdx.toNat = s.rxIdx.toNat + 1 := rxIdx_succ hlt
  have hread : ∀ a < s.rxIdx.toNat + 1, (rxRead (storeRx b s) a).isSome := fun a ha => by
    rw [rxRead_storeRx b hlt ha]
    exact memRead_store_isSome b hcells ha
  refine ⟨hhalf, by omega, ?_, ?_, fun a ha => hread a (by omega), fun h4 => ?_⟩
  · rw [rxRead_storeRx_below b hlt (by omega), h0]
  · rw [rxRead_storeRx_below b hlt (by omega), h1]
  · obtain ⟨n, hn⟩ := Option.isSome_iff_exists.1 (hread 3 (by omega))
    refine ⟨n, hn, Nat.lt_of_le_of_ne ?_ fun he => hd ⟨h4, n, hn, he⟩⟩
    by_cases h3 : s.rxIdx.toNat = 3
    · omega
    · obtain ⟨m, hm, hmlt⟩ := hmore (by omega)
      rw [rxRead_storeRx_below b hlt (by omega), hm, Option.some.injEq] at hn
      subst hn
      omega

theorem inv_storeRx {s : State} (b : Byte) (h : Inv s) (hs : s.synState = .synced) (hlt : s.rxIdx.toNat < Config.maxFrame)
    (hd : ¬ FrameDone (storeRx b s)) : Inv (storeRx b s) := by
  refine ⟨fun hscan => ?_, fun _ => syncedInv_storeRx b (h.synced hs) hd, memWrite_wf _ _ _ h.rxWf,
    memWrite_within _ _ _ h.rxWithin hlt, h.txWf, h.txWithin, h.reserved⟩
  rw [storeRx_synState, hs] at hscan
  cases hscan

/-- The last byte of a frame is stored and the receive path returns to Scanning (43_collector.md R145). -/
theorem inv_toScanning_storeRx {s : State} (b : Byte) (h : Inv s) (hlt : s.rxIdx.toNat < Config.maxFrame) :
    Inv (toScanning (storeRx b s)) :=
  ⟨fun _ => rfl, nofun, memWrite_wf _ _ _ h.rxWf, memWrite_within _ _ _ h.rxWithin hlt, h.txWf,
    h.txWithin, h.reserved⟩

/-- An operation keeps the invariant in the `SYN_STATE` that selects it; `SYN.BYTE` in Synced or `RXC.BYTE` in Scanning would
not (log entry 13). -/
theorem exec_keeps_inv {i : Instr} {s t : State} (hi : Inv s) (hk : (keyState i).getD s.synState = s.synState)
    (h : exec i s = .next t) : Inv t := by
  cases i with
  | cksClr | cksUpd _ => cases h; exact inv_setCks _ hi
  | cksSpan _ => cases h; exact inv_respond _ (inv_setCks _ hi)
  | synRearm => cases h; exact inv_toScanning hi
  | cfgWr reg v => cases h; exact inv_writeReg reg v hi
  | synByte b => cases h; exact inv_matchMarker b hi hk.symm
  | rxcByte b =>
    obtain ⟨hlt, ⟨rfl, hd⟩ | ⟨-, buf, -, rfl⟩⟩ := execRxcByte_next h
    · exact inv_storeRx b hi hk.symm hlt hd
    · exact inv_postResult _ (inv_toScanning_storeRx b hi hlt)
  | synDeadline => cases h; exact inv_raiseError _ (inv_setHalf hi fun _ => rfl)
  | rxcDeadline => cases h; exact inv_raiseError _ (inv_toScanning hi)
  | bldBuild _ _ | cmdIdle | cmdResume | cmdPpsSource _ | cmdPpsPulse _ | cmdGnssOffset _ _ _ | cmdMsgFormat _ _ _
  | cmdStreamEn _ | cmdPoll _ => cases h; exact inv_runBuild _ _ hi
  | _ => cases h; exact inv_respond _ hi

theorem offTable_keeps_inv {r : Reject} {s t : State} (hi : Inv s) (h : offTable r s = .next t) : Inv t := by
  obtain ⟨-, rfl⟩ | ⟨fd, -, rfl⟩ := offTable_next h
  · exact inv_resetEvent s
  · exact inv_respond _ hi

/-- Settles O52: the decoder picks a receive operation by `SYN_STATE`, and every operation so picked keeps the invariant. -/
theorem stepKeepsInv : Obligations.StepKeepsInv := by
  unfold Obligations.StepKeepsInv
  intro s t hi h
  obtain ⟨x, rest, -, ⟨i, hd, he⟩ | ⟨r, -, ho⟩⟩ := step_next h
  · exact exec_keeps_inv (inv_setStimuli rest hi) (decode_keyState hd) he
  · exact offTable_keeps_inv (inv_setStimuli rest hi) ho

/-- Settles O3: Scanning with `RX_IDX` 0, both buffers unwritten, `CFG` zero. -/
theorem resetMeetsInv : Obligations.ResetMeetsInv := inv_reset

end Sys2Proof.Machine
end

section
/-! An unconfigured engine (10_state.md R38): an expected set outside the enumeration admits no record. -/

namespace Sys2Proof.Machine

/-- Check 3 asks for a set that is both the expected one and in the enumeration (44_decoder.md R160). -/
theorem setOk_eq_false {ds expDs : Byte} (h : expDs ∉ Config.dsEnum) : setOk ds expDs = false := by
  by_cases hds : ds = expDs
  · subst hds
    simp [setOk, h]
  · simp [setOk, hds]

theorem decodeFrame_ne_ok {expDs : Byte} (h : expDs ∉ Config.dsEnum) (buf : List Byte) (fds : BitVec 256) (g : Bool)
    (r : Record) : decodeFrame buf expDs fds g ≠ .ok r := by
  rw [decodeFrame, if_pos (setOk_eq_false h)]
  split
  · simp
  · split <;> simp

/-- Settles O1: the reset value 0 of `EXP_DS` is no descriptor set, so check 3 lets no frame through. -/
theorem resetAdmitsNoRecord : Obligations.ResetAdmitsNoRecord := by
  unfold Obligations.ResetAdmitsNoRecord
  refine ⟨rfl, rfl, rfl, rfl, rfl, rfl, rfl, rfl, rfl, rfl, rfl, fun buf g r => ?_⟩
  exact decodeFrame_ne_ok (by decide) buf _ g r

end Sys2Proof.Machine
end

section
/-! What every operation leaves of the outputs, of the waiting stimuli and of the control registers. -/

namespace Sys2Proof.Machine

theorem postResult_outputsGrow (r : DecodeResult) (s : State) : OutputsGrow s (postResult r s) := by
  rcases postResult_cases r s with ⟨rec, -, h⟩ | ⟨e, -, h⟩ <;> rw [h] <;> simp [OutputsGrow]

theorem runBuild_outputsGrow (ds : Byte) (fields : List (Byte × List Byte)) (s : State) :
    OutputsGrow s (runBuild ds fields s) := by
  rcases runBuild_cases ds fields s with ⟨f, -, h⟩ | ⟨e, -, h⟩ <;> rw [h] <;> simp [OutputsGrow]

theorem writeReg_outputsGrow (reg : Reg) (v : BitVec 256) (s : State) : OutputsGrow s (writeReg reg v s) := by
  cases reg <;> simp [writeReg, OutputsGrow]

theorem effect_outputsGrow {s t : State} (h : Effect s t) : OutputsGrow s t := by
  cases h with
  | config reg v => exact writeReg_outputsGrow reg v s
  | build ds fields => exact runBuild_outputsGrow ds fields s
  | complete b buf _ _ _ => exact postResult_outputsGrow _ (toScanning (storeRx b s))
  | _ => simp [OutputsGrow]

theorem offTable_outputsGrow {r : Reject} {s t : State} (h : offTable r s = .next t) : OutputsGrow s t := by
  obtain ⟨-, rfl⟩ | ⟨fd, -, rfl⟩ := offTable_next h <;> simp [OutputsGrow]

/-- Settles O54: every effect of an operation appends to an output or leaves it, and so do the `reset` event and a field with no
shape. -/
theorem outputsOnlyGrow : Obligations.OutputsOnlyGrow := by
  unfold Obligations.OutputsOnlyGrow
  intro s t h
  obtain ⟨x, rest, -, ⟨i, -, he⟩ | ⟨r, -, ho⟩⟩ := step_next h
  · exact (effect_outputsGrow (exec_effect he) :)
  · exact (offTable_outputsGrow ho :)

@[simp] theorem writeReg_stimuli (reg : Reg) (v : BitVec 256) (s : State) : (writeReg reg v s).stimuli = s.stimuli := by
  cases reg <;> rfl

@[simp] theorem postResult_stimuli (r : DecodeResult) (s : State) : (postResult r s).stimuli = s.stimuli := by
  cases r <;> rfl

@[simp] theorem runBuild_stimuli (ds : Byte) (fields : List (Byte × List Byte)) (s : State) :
    (runBuild ds fields s).stimuli = s.stimuli := by
  rcases runBuild_cases ds fields s with ⟨f, -, h⟩ | ⟨e, -, h⟩ <;> simp [h]

theorem effect_keeps_stimuli {s t : State} (h : Effect s t) : t.stimuli = s.stimuli := by
  cases h <;> simp

/-- The control registers a host write can change (10_state.md R30 to R32). -/
def controlRegs (s : State) : Byte × BitVec 256 × BitVec 8 := (s.expDs, s.expFd, s.cfg)

theorem controlRegs_eq_iff {s t : State} :
    controlRegs t = controlRegs s ↔ t.expDs = s.expDs ∧ t.expFd = s.expFd ∧ t.cfg = s.cfg := by
  simp [controlRegs]

@[simp] theorem controlRegs_matchMarker (b : Byte) (s : State) : controlRegs (matchMarker b s) = controlRegs s := by
  rcases matchMarker_cases b s with ⟨-, -, h⟩ | ⟨-, -, h⟩ | ⟨-, -, h⟩ | ⟨-, -, h⟩ <;> simp [h, controlRegs]

@[simp] theorem controlRegs_postResult (r : DecodeResult) (s : State) :
    controlRegs (postResult r s) = controlRegs s := by
  cases r <;> rfl

@[simp] theorem controlRegs_runBuild (ds : Byte) (fields : List (Byte × List Byte)) (s : State) :
    controlRegs (runBuild ds fields s) = controlRegs s := by
  rcases runBuild_cases ds fields s with ⟨f, -, h⟩ | ⟨e, -, h⟩ <;> simp [h, controlRegs]

/-- Only `CFG.WR` writes a control register, and it is one register write (10_state.md R30 to R32). -/
theorem exec_cfgWr_or_keeps_controlRegs {i : Instr} {s t : State} (h : exec i s = .next t) :
    (∃ reg v, i = .cfgWr reg v ∧ t = writeReg reg v s) ∨ controlRegs t = controlRegs s := by
  cases i with
  | cfgWr reg v => cases h; exact .inl ⟨reg, v, rfl, rfl⟩
  | synByte b => cases h; exact .inr (controlRegs_matchMarker b s)
  | rxcByte b =>
    obtain ⟨-, ⟨rfl, -⟩ | ⟨-, buf, -, rfl⟩⟩ := execRxcByte_next h
    · exact .inr rfl
    · exact .inr (controlRegs_postResult _ _)
  | bldBuild _ _ | cmdIdle | cmdResume | cmdPpsSource _ | cmdPpsPulse _ | cmdGnssOffset _ _ _ | cmdMsgFormat _ _ _
  | cmdStreamEn _ | cmdPoll _ => cases h; exact .inr (controlRegs_runBuild _ _ s)
  | _ => cases h; exact .inr rfl

/-- A write to one register leaves the others; `STATUS` ignores it (48_system_ops.md R233). -/
theorem writeReg_keeps_others (reg : Reg) (v : BitVec 256) (s : State) :
    (reg ≠ .expDs → (writeReg reg v s).expDs = s.expDs) ∧ (reg ≠ .expFd → (writeReg reg v s).expFd = s.expFd) ∧
    (reg ≠ .cfg → (writeReg reg v s).cfg = s.cfg) := by
  cases reg <;> simp [writeReg]

theorem exec_keeps_unaddressed_controlRegs {i : Instr} {s t : State} (h : exec i s = .next t) :
    ((∀ v, i ≠ .cfgWr .expDs v) → t.expDs = s.expDs) ∧ ((∀ v, i ≠ .cfgWr .expFd v) → t.expFd = s.expFd) ∧
    ((∀ v, i ≠ .cfgWr .cfg v) → t.cfg = s.cfg) := by
  obtain ⟨reg, v, rfl, rfl⟩ | hc := exec_cfgWr_or_keeps_controlRegs h
  · obtain ⟨hds, hfd, hcfg⟩ := writeReg_keeps_others reg v s
    exact ⟨fun hi => hds fun hr => hi v (by rw [hr]), fun hi => hfd fun hr => hi v (by rw [hr]),
      fun hi => hcfg fun hr => hi v (by rw [hr])⟩
  · obtain ⟨hds, hfd, hcfg⟩ := controlRegs_eq_iff.1 hc
    exact ⟨fun _ => hds, fun _ => hfd, fun _ => hcfg⟩

end Sys2Proof.Machine
end

section
/-! The visible accumulators (10_state.md R22, R23): each update outside the checksum port commutes with setting them. -/

namespace Sys2Proof.Machine

theorem matchMarker_setCks (b : Byte) (ab : Byte × Byte) (s : State) :
    matchMarker b (setCks ab s) = setCks ab (matchMarker b s) := by
  unfold matchMarker
  rw [setCks_synHalf]
  split <;> split <;> rfl

theorem writeReg_setCks (reg : Reg) (v : BitVec 256) (ab : Byte × Byte) (s : State) :
    writeReg reg v (setCks ab s) = setCks ab (writeReg reg v s) := by
  cases reg <;> rfl

theorem postResult_setCks (r : DecodeResult) (ab : Byte × Byte) (s : State) :
    postResult r (setCks ab s) = setCks ab (postResult r s) := by
  cases r <;> rfl

theorem runBuild_setCks (ds : Byte) (fields : List (Byte × List Byte)) (ab : Byte × Byte) (s : State) :
    runBuild ds fields (setCks ab s) = setCks ab (runBuild ds fields s) := by
  unfold runBuild
  split <;> rfl

theorem completeFrame_setCks {s t : State} (ab : Byte × Byte) (h : completeFrame s = .next t) :
    completeFrame (setCks ab s) = .next (setCks ab t) := by
  obtain ⟨buf, hb, rfl⟩ := completeFrame_next h
  have hb' : rxFrame (setCks ab s) = some buf := hb
  rw [completeFrame, hb', ← postResult_setCks]
  rfl

theorem afterStore_setCks {s t : State} (ab : Byte × Byte) (h : afterStore s = .next t) :
    afterStore (setCks ab s) = .next (setCks ab t) := by
  have hr : rxRead (setCks ab s) 3 = rxRead s 3 := rfl
  unfold afterStore at h ⊢
  rw [setCks_rxIdx, hr]
  split at h
  · rename_i hlt
    rw [if_pos hlt]
    cases h
    rfl
  · rename_i hge
    rw [if_neg hge]
    split at h
    · cases h
    · split at h
      · rename_i hdone
        rw [if_pos hdone]
        exact completeFrame_setCks ab h
      · rename_i hnot
        rw [if_neg hnot]
        cases h
        rfl

theorem execRxcByte_setCks {b : Byte} {s t : State} (ab : Byte × Byte) (h : execRxcByte b s = .next t) :
    execRxcByte b (setCks ab s) = .next (setCks ab t) := by
  unfold execRxcByte at h ⊢
  split at h
  · rename_i hlt
    rw [setCks_rxIdx, if_pos hlt]
    exact afterStore_setCks ab h
  · cases h

/-- No operation outside the port reads or writes the visible accumulators (10_state.md R22, R23). -/
theorem exec_setCks {i : Instr} {s t : State} (ab : Byte × Byte) (hi : usesChecksumPort i = false)
    (h : exec i s = .next t) : exec i (setCks ab s) = .next (setCks ab t) := by
  cases i with
  | cksClr | cksUpd _ | cksRd | cksSpan _ => cases hi
  | cfgWr reg v => cases h; exact congrArg _ (writeReg_setCks reg v ab s)
  | synByte b => cases h; exact congrArg _ (matchMarker_setCks b ab s)
  | rxcByte b => exact execRxcByte_setCks ab h
  | bldBuild _ _ | cmdIdle | cmdResume | cmdPpsSource _ | cmdPpsPulse _ | cmdGnssOffset _ _ _ | cmdMsgFormat _ _ _
  | cmdStreamEn _ | cmdPoll _ => cases h; exact congrArg _ (runBuild_setCks _ _ ab s)
  | _ => cases h; rfl

/-- Settles O57: the record update of the statement is `setCks`, with which every operation outside the port commutes. -/
theorem accumulatorsVisibleOnlyToPort : Obligations.AccumulatorsVisibleOnlyToPort := by
  unfold Obligations.AccumulatorsVisibleOnlyToPort
  intro i s t a b hi h
  exact exec_setCks (a, b) hi h

/-- An operation that commutes with setting the accumulators keeps them: set them to what they are. -/
theorem exec_keeps_accumulators {i : Instr} {s t : State} (hi : usesChecksumPort i = false) (h : exec i s = .next t) :
    t.cksA = s.cksA ∧ t.cksB = s.cksB := by
  have hset := exec_setCks (s.cksA, s.cksB) hi h
  have hself : setCks (s.cksA, s.cksB) s = s := rfl
  rw [hself, h, Host.Outcome.next.injEq] at hset
  rw [hset]
  exact ⟨rfl, rfl⟩

/-- Settles O56: each clause is the frame of its registers. -/
theorem registersWrittenOnlyByTheirOperations : Obligations.RegistersWrittenOnlyByTheirOperations := by
  unfold Obligations.RegistersWrittenOnlyByTheirOperations
  intro i s t h
  obtain ⟨hds, hfd, hcfg⟩ := exec_keeps_unaddressed_controlRegs h
  exact ⟨fun hi => exec_keeps_accumulators hi h, hds, hfd, hcfg, effect_keeps_stimuli (exec_effect h)⟩

end Sys2Proof.Machine
end

section
/-! The engine never halts (10_state.md R39, 60_exceptions.md R257): under the invariant the operation a stimulus selects answers
a next state, and what selects none is the `reset` event, a field with no shape, or refused by name. -/

namespace Sys2Proof.Machine

/-- `RXC.BYTE` is selected in Synced, where the invariant keeps its reads and its store inside what `RX_BUF` holds. -/
theorem exec_next_of_inv {i : Instr} {s : State} (hi : Inv s) (hk : (keyState i).getD s.synState = s.synState) :
    ∃ t, exec i s = .next t := by
  rcases exec_next_or_rxcByte i s with h | ⟨b, rfl⟩
  · exact h
  · have hsync := hi.synced hk.symm
    rcases execRxcByte_cases b (syncedInv_idx hsync) (syncedInv_cells hsync) with ⟨-, h⟩ | ⟨-, buf, -, h⟩ <;> exact ⟨_, h⟩

theorem step_next_of_decode_ok {s : State} {x : Stimulus} {rest : List Stimulus} {i : Instr} (hi : Inv s)
    (hs : s.stimuli = x :: rest) (hd : decode s.synState x = .ok i) : ∃ t, step s = .next t ∧ t.stimuli = rest := by
  obtain ⟨t, ht⟩ := exec_next_of_inv (inv_setStimuli rest hi) (decode_keyState hd)
  exact ⟨t, by rw [step_of_decode_ok hs hd, ht], effect_keeps_stimuli (exec_effect ht)⟩

theorem offTable_outcome (r : Reject) (s : State) :
    (∃ t, offTable r s = .next t ∧ t.stimuli = s.stimuli) ∨ offTable r s = .refused .fieldCutShort ∨
    offTable r s = .refused .fieldOfReservedLength ∨ ∃ ds, offTable r s = .refused (.fieldOfUnknownSet ds) := by
  cases r with
  | resetEvent => exact .inl ⟨_, rfl, rfl⟩
  | noShape fd => exact .inl ⟨_, rfl, rfl⟩
  | fieldCutShort => exact .inr (.inl rfl)
  | reservedLength => exact .inr (.inr (.inl rfl))
  | unknownSet ds => exact .inr (.inr (.inr ⟨ds, rfl⟩))

/-- Settles O53: a decoded operation has a next state under the invariant, and of the stimuli that decode to none only a field is
ever refused. -/
theorem engineNeverHalts : Obligations.EngineNeverHalts := by
  unfold Obligations.EngineNeverHalts
  intro s x rest hi hs
  cases hd : decode s.synState x with
  | ok i =>
    have hnext := step_next_of_decode_ok hi hs hd
    exact ⟨fun _ => hnext, fun _ _ _ => .inl hnext⟩
  | error r =>
    rw [step_of_decode_error hs hd]
    refine ⟨fun hx => ?_, fun _ _ _ => offTable_outcome r _⟩
    rw [decode_error_of_not_field hx hd]
    exact ⟨_, rfl, rfl⟩

end Sys2Proof.Machine
end

section
/-! The bytes of `RX_BUF` (20_memory.md R60): what each operation leaves of them, and when `RXC.BYTE` would leave the buffer. -/

namespace Sys2Proof.Machine

@[simp] theorem writeReg_rxBuf (reg : Reg) (v : BitVec 256) (s : State) : (writeReg reg v s).rxBuf = s.rxBuf := by
  cases reg <;> rfl

@[simp] theorem postResult_rxBuf (r : DecodeResult) (s : State) : (postResult r s).rxBuf = s.rxBuf := by
  cases r <;> rfl

@[simp] theorem runBuild_rxBuf (ds : Byte) (fields : List (Byte × List Byte)) (s : State) :
    (runBuild ds fields s).rxBuf = s.rxBuf := by
  obtain ⟨-, -, -, hbuf, -⟩ := receiveSide_eq_iff.1 (receiveSide_runBuild ds fields s)
  exact hbuf

/-- The matcher stores the marker's two cells, and only on a match (42_synchronizer.md R127). -/
theorem memRead_matchMarker_other {b : Byte} {s : State} {a : Nat} (ha : a ∉ storesRx (.synByte b) s) :
    memRead (matchMarker b s).rxBuf a = memRead s.rxBuf a := by
  rcases matchMarker_cases b s with ⟨-, -, h⟩ | ⟨-, -, h⟩ | ⟨hhalf, rfl, h⟩ | ⟨-, -, h⟩ <;> rw [h]
  · rw [setHalf_rxBuf]
  · obtain ⟨h0, h1⟩ : a ≠ 0 ∧ a ≠ 1 := by simpa [storesRx, hhalf, Config.sync1] using ha
    rw [enterSynced_rxBuf, memRead_memWrite_other _ _ h1, memRead_memWrite_other _ _ h0]
  · rw [setHalf_rxBuf]

/-- The collector stores one cell whether or not the byte completes the frame (43_collector.md R142). -/
theorem execRxcByte_rxBuf {b : Byte} {s t : State} (h : execRxcByte b s = .next t) :
    t.rxBuf = memWrite s.rxBuf s.rxIdx.toNat b := by
  obtain ⟨-, ⟨rfl, -⟩ | ⟨-, buf, -, rfl⟩⟩ := execRxcByte_next h <;> simp

/-- Settles O60: only the matcher and the collector store to the buffer, each to the cells named. -/
theorem receiveBufferFrame : Obligations.ReceiveBufferFrame := by
  unfold Obligations.ReceiveBufferFrame
  intro i s t h a ha
  cases i with
  | synByte b => cases h; exact memRead_matchMarker_other ha
  | rxcByte b => rw [execRxcByte_rxBuf h, memRead_memWrite_other _ _ (List.ne_of_not_mem_cons ha)]
  | cfgWr reg v => cases h; exact congrArg (memRead · a) (writeReg_rxBuf reg v s)
  | bldBuild _ _ | cmdIdle | cmdResume | cmdPpsSource _ | cmdPpsPulse _ | cmdGnssOffset _ _ _ | cmdMsgFormat _ _ _
  | cmdStreamEn _ | cmdPoll _ => cases h; exact congrArg (memRead · a) (runBuild_rxBuf _ _ s)
  | _ => cases h; rfl

theorem step_of_no_stimulus {s : State} (hs : s.stimuli = []) : step s = .fault .noStimulus := by
  simp [step, fetch, hs]

theorem step_ne_fault_of_inv {s : State} {x : Stimulus} {rest : List Stimulus} (hi : Inv s) (hs : s.stimuli = x :: rest)
    (f : Fault) : step s ≠ .fault f := by
  cases hd : decode s.synState x with
  | ok i =>
    obtain ⟨t, ht, -⟩ := step_next_of_decode_ok hi hs hd
    simp [ht]
  | error r =>
    rw [step_of_decode_error hs hd]
    rcases offTable_outcome r { s with stimuli := rest } with ⟨t, h, -⟩ | h | h | ⟨ds, h⟩ <;> simp [h]

theorem step_fault_iff_of_inv {s : State} (hi : Inv s) (f : Fault) :
    step s = .fault f ↔ f = .noStimulus ∧ s.stimuli = [] := by
  cases hs : s.stimuli with
  | nil => simp [step_of_no_stimulus hs, eq_comm]
  | cons x rest => simp [step_ne_fault_of_inv hi hs f]

theorem execRxcByte_overrun {s : State} (b : Byte) (h : 261 ≤ s.rxIdx.toNat) :
    execRxcByte b s = .fault .rxBufOverrun :=
  if_neg (Nat.not_lt.2 h)

/-- The length byte lies below the cell the byte goes to, so storing the byte does not supply it (log entry 4). -/
theorem execRxcByte_unreadable {s : State} (b : Byte) (h4 : 4 ≤ s.rxIdx.toNat) (hlt : s.rxIdx.toNat < 261)
    (hn : memRead s.rxBuf 3 = none) : execRxcByte b s = .fault .rxBufUnreadable := by
  have hread : rxRead (storeRx b s) 3 = none := by
    rw [rxRead_storeRx b hlt (by omega), memRead_memWrite_other _ _ (by omega), hn]
  have hidx : ¬ (storeRx b s).rxIdx.toNat < 4 := by
    rw [storeRx_rxIdx, rxIdx_succ hlt]
    omega
  rw [execRxcByte, if_pos (show _ < Config.maxFrame from hlt), afterStore, if_neg hidx, hread]

/-- Settles O21: the invariant bounds `RX_IDX` and has every cell the collector reads written; outside it the two guards of the
collector answer. -/
theorem noBufferFaultUnderInv : Obligations.NoBufferFaultUnderInv := by
  unfold Obligations.NoBufferFaultUnderInv
  refine fun s => ⟨step_fault_iff_of_inv, fun hi hs => ⟨?_, fun b => exec_next_of_inv hi hs.symm⟩,
    fun b => ⟨execRxcByte_overrun b, execRxcByte_unreadable b⟩⟩
  exact Nat.le_of_lt_succ (syncedInv_idx (hi.synced hs))

end Sys2Proof.Machine
end

section
/-! What the decoder answers for a field key of each shape, for the encoding of every operation, and that its answers are
well-formed (30_encoding.md R100, R103, R104). -/

namespace Sys2Proof

/-- A register value is read modulo its register's width (48_system_ops.md R233; log entry 1). -/
theorem atWidth_toNat (reg : Reg) (v : BitVec 256) : (atWidth reg v).toNat = v.toNat % 2 ^ reg.width := by
  have hmod : ((v.setWidth 8).setWidth 256).toNat = v.toNat % 2 ^ 8 := by
    simp only [BitVec.toNat_setWidth]
    omega
  cases reg with
  | expFd => exact (Nat.mod_eq_of_lt v.isLt).symm
  | expDs | cfg | status => exact hmod

theorem atWidth_toNat_lt (reg : Reg) (v : BitVec 256) : (atWidth reg v).toNat < 2 ^ reg.width := by
  rw [atWidth_toNat]
  exact Nat.mod_lt _ (Nat.two_pow_pos _)

theorem atWidth_of_lt {reg : Reg} {v : BitVec 256} (h : v.toNat < 2 ^ reg.width) : atWidth reg v = v :=
  BitVec.eq_of_toNat_eq ((atWidth_toNat reg v).trans (Nat.mod_eq_of_lt h))

/-! ### The shape of a set and descriptor -/

theorem shapeOf_sens_none {fd : Byte} (ha : fd ≠ 0x04) (hg : fd ≠ 0xD3) : shapeOf 0x80 fd = none := by
  rw [shapeOf, if_pos rfl, if_neg ha, if_neg hg]

theorem commandSets_subset_dsEnum {ds : Byte} (h : ds ∈ Config.commandSets) : ds ∈ Config.dsEnum :=
  List.mem_append_left [0x80] h

theorem shapeOf_unknownSet {ds : Byte} (h : ds ∉ Config.dsEnum) (fd : Byte) : shapeOf ds fd = none := by
  have hsens : ds ≠ 0x80 := by
    rintro rfl
    exact h (by decide)
  rw [shapeOf, if_neg hsens, if_neg (mt commandSets_subset_dsEnum h)]

/-! ### A field whose data the length byte announces, whatever follows it on the wire -/

theorem decodeField_cutShort {fl : Byte} {d : List Byte} (h : d.length < dataCount fl) (ds fd : Byte) :
    decodeField (fieldKey ds fl fd) d = .error .fieldCutShort := by
  rw [decodeField, keyLength_fieldKey, if_pos h]

section
variable {ds fl fd : Byte} {d : List Byte} (hl : d.length = dataCount fl) (extra : List Byte)
include hl

theorem decodeField_accel (hs : shapeOf ds fd = some .accel) :
    decodeField (fieldKey ds fl fd) (d ++ extra) = .ok (.extAccel d) := by
  simp [decodeField, hs, ← hl]

theorem decodeField_gpsTime (hs : shapeOf ds fd = some .gpsTime) :
    decodeField (fieldKey ds fl fd) (d ++ extra) = .ok (.extGpstime d) := by
  simp [decodeField, hs, ← hl]

theorem decodeField_raw (hs : shapeOf ds fd = some .raw) (h2 : 2 ≤ fl.toNat) :
    decodeField (fieldKey ds fl fd) (d ++ extra) = .ok (.extRaw ds fd d) := by
  simp [decodeField, hs, ← hl, Nat.not_lt.2 h2]

theorem decodeField_reservedLength (hs : shapeOf ds fd = some .raw) (h2 : fl.toNat < 2) :
    decodeField (fieldKey ds fl fd) (d ++ extra) = .error .reservedLength := by
  simp [decodeField, hs, ← hl, h2]

theorem decodeField_noShape (hs : shapeOf ds fd = none) (hd : ds ∈ Config.dsEnum) :
    decodeField (fieldKey ds fl fd) (d ++ extra) = .error (.noShape fd) := by
  simp [decodeField, hs, ← hl, hd]

theorem decodeField_unknownSet (hd : ds ∉ Config.dsEnum) :
    decodeField (fieldKey ds fl fd) (d ++ extra) = .error (.unknownSet ds) := by
  simp [decodeField, shapeOf_unknownSet hd, ← hl, hd]

end

/-! ### Decoding an encoding -/

/-- At most 253 data bytes leave room for the two header bytes the length byte counts (30_encoding.md R84). -/
theorem lengthByte_toNat {d : List Byte} (h : d.length ≤ Config.maxFieldData) :
    (BitVec.ofNat 8 (d.length + 2)).toNat = d.length + 2 := by
  have h253 : d.length ≤ 253 := h
  exact Nat.mod_eq_of_lt (by omega)

theorem length_eq_dataCount {d : List Byte} (h : d.length ≤ Config.maxFieldData) :
    d.length = dataCount (BitVec.ofNat 8 (d.length + 2)) := by
  rw [dataCount, lengthByte_toNat h, Nat.add_sub_cancel]

theorem decode_encodeField (st : SynState) (ds fd : Byte) (d : List Byte) :
    decode st (encodeField ds fd d) = decodeField (fieldKey ds (BitVec.ofNat 8 (d.length + 2)) fd) (d ++ []) := by
  rw [List.append_nil]
  rfl

theorem decode_encodeField_accel {d : List Byte} (h : d.length ≤ Config.maxFieldData) (st : SynState) :
    decode st (encodeField 0x80 0x04 d) = .ok (.extAccel d) := by
  rw [decode_encodeField, decodeField_accel (length_eq_dataCount h) [] rfl]

theorem decode_encodeField_gpsTime {d : List Byte} (h : d.length ≤ Config.maxFieldData) (st : SynState) :
    decode st (encodeField 0x80 0xD3 d) = .ok (.extGpstime d) := by
  rw [decode_encodeField, decodeField_gpsTime (length_eq_dataCount h) [] rfl]

theorem decode_encodeField_raw {ds : Byte} {d : List Byte} (hd : ds ∈ Config.commandSets)
    (h : d.length ≤ Config.maxFieldData) (fd : Byte) (st : SynState) :
    decode st (encodeField ds fd d) = .ok (.extRaw ds fd d) := by
  have h2 : 2 ≤ (BitVec.ofNat 8 (d.length + 2)).toNat := by simp only [lengthByte_toNat h, Nat.le_add_left]
  rw [decode_encodeField, decodeField_raw (length_eq_dataCount h) [] (shapeOf_commandSet hd fd) h2]

/-- Settles O7: well-formedness is what keeps the decoder's cuts (to a register's width, to `P_DECIM_BYTES` bytes, to the
announced length) from losing anything; the key of a receive operation fixes the state it is read in. -/
theorem decodeOfEncode : Obligations.DecodeOfEncode := by
  unfold Obligations.DecodeOfEncode
  intro i st hwf hkey
  cases i with
  | synByte _ | rxcByte _ | synDeadline | rxcDeadline => rw [← hkey]; rfl
  | cfgWr reg v => exact congrArg (fun w => Except.ok (Instr.cfgWr reg w)) (atWidth_of_lt (of_decide_eq_true hwf))
  | cmdMsgFormat tds tfd dec =>
    exact congrArg (fun n => Except.ok (Instr.cmdMsgFormat tds tfd n)) (Nat.mod_eq_of_lt (of_decide_eq_true hwf))
  | extAccel d => exact decode_encodeField_accel (of_decide_eq_true hwf) st
  | extGpstime d => exact decode_encodeField_gpsTime (of_decide_eq_true hwf) st
  | extRaw ds fd d =>
    obtain ⟨hd, hlen⟩ := Bool.and_eq_true_iff.1 hwf
    exact decode_encodeField_raw (of_decide_eq_true hd) (of_decide_eq_true hlen) fd st
  | _ => rfl

/-! ### What the decoder answers is well-formed -/

theorem decodeRequest_wf (opsel : BitVec 4) (o : Operands) : (decodeRequest opsel o).wf = true := by
  unfold decodeRequest
  split
  case h_8 => exact decide_eq_true (atWidth_toNat_lt o.reg o.value)
  all_goals rfl

theorem decodeTemplate_wf (t : TemplateName) (o : Operands) : (decodeTemplate t o).wf = true := by
  cases t with
  | msgFormat => exact decide_eq_true (Nat.mod_lt _ (Nat.pow_pos (by decide)))
  | _ => rfl

theorem dataCount_le (fl : Byte) : dataCount fl ≤ Config.maxFieldData :=
  Nat.sub_le_sub_right (Nat.le_of_lt_succ fl.isLt) 2

theorem decodeField_wf {key : BitVec 24} {data : List Byte} {i : Instr} (h : decodeField key data = .ok i) :
    i.wf = true := by
  have hlen : (data.take (dataCount (keyLength key))).length ≤ Config.maxFieldData :=
    (List.length_take_le _ _).trans (dataCount_le _)
  obtain ⟨-, ⟨-, rfl⟩ | ⟨-, rfl⟩ | ⟨hs, -, rfl⟩⟩ := decodeField_next h
  · exact decide_eq_true hlen
  · exact decide_eq_true hlen
  · exact Bool.and_eq_true_iff.2 ⟨decide_eq_true (shapeOf_raw hs), decide_eq_true hlen⟩

/-- Settles O8: the decoder cuts a register value to its width, a decimation to `P_DECIM_BYTES` bytes and a field to what a
length byte can announce, and only a command set has the RAW shape. -/
theorem decodedIsWellFormed : Obligations.DecodedIsWellFormed := by
  unfold Obligations.DecodedIsWellFormed
  intro st x i h
  cases x with
  | rxByte _ | rxDeadline => cases st <;> cases h <;> rfl
  | request opsel o => cases h; exact decodeRequest_wf opsel o
  | template t o => cases h; exact decodeTemplate_wf t o
  | field key data => exact decodeField_wf h
  | reset => cases h

/-! ### What each stimulus selects -/

/-- Settles O5: the requests, templates and receive stimuli are the decoder's own rows; a field goes by the shape of its
set and descriptor. -/
theorem stimulusSelectsOperation : Obligations.StimulusSelectsOperation := by
  unfold Obligations.StimulusSelectsOperation
  intro st o b ds fl fd d extra
  refine ⟨⟨rfl, rfl, rfl, rfl⟩, ?requests, ⟨rfl, rfl, rfl, rfl, rfl, rfl, rfl, rfl⟩, fun hl => ?fields,
    fun hcut => decodeField_cutShort hcut ds fd, rfl⟩
  case requests =>
    exact ⟨rfl, rfl, rfl, rfl, rfl, rfl, rfl, ⟨_, rfl, atWidth_toNat o.reg o.value⟩,
      rfl, rfl, rfl, rfl, rfl, rfl, rfl, rfl⟩
  case fields =>
    exact ⟨decodeField_accel hl extra rfl, decodeField_gpsTime hl extra rfl,
      fun ha hg => decodeField_noShape hl extra (shapeOf_sens_none ha hg) (by decide),
      fun hd h2 => decodeField_raw hl extra (shapeOf_commandSet hd fd) h2,
      fun hd h2 => decodeField_reservedLength hl extra (shapeOf_commandSet hd fd) h2,
      decodeField_unknownSet hl extra⟩

/-- Settles O6: the words are literals, so the decoder runs on them. -/
theorem tableWordsDecode : Obligations.TableWordsDecode := by
  unfold Obligations.TableWordsDecode
  decide

end Sys2Proof
end

section
/-! Big-endian numbers (30_encoding.md R86): a byte list is the number whose base-256 digits it holds, first digit most
significant, and `bytesBe` and `bytesBe32` write those digits. -/

namespace Sys2Proof.Machine

@[simp] theorem beNat_nil : beNat [] = 0 := rfl

/-- The first byte weighs most (30_encoding.md R86). -/
theorem beNat_cons (b : Byte) (bs : List Byte) : beNat (b :: bs) = b.toNat * 256 ^ bs.length + beNat bs := by
  have hfrom (acc : Nat) : bs.foldl (fun acc b => acc * 256 + b.toNat) acc = acc * 256 ^ bs.length + beNat bs := by
    unfold beNat
    induction bs generalizing acc with
    | nil => simp
    | cons c cs ih =>
      simp only [List.foldl_cons, List.length_cons, ih (acc * 256 + c.toNat), ih (0 * 256 + c.toNat)]
      ring
  rw [← hfrom b.toNat, beNat, List.foldl_cons, Nat.zero_mul, Nat.zero_add]

theorem beNat_lt (bs : List Byte) : beNat bs < 256 ^ bs.length := by
  induction bs with
  | nil => exact Nat.one_pos
  | cons b bs ih =>
    have hb : (b.toNat + 1) * 256 ^ bs.length ≤ 256 * 256 ^ bs.length := Nat.mul_le_mul_right _ b.isLt
    rw [beNat_cons, List.length_cons, Nat.pow_succ]
    linarith

/-- A word of `n` bytes' width holds the number of `n` bytes. -/
theorem ofNat_beNat_toNat {bs : List Byte} {n : Nat} (h : bs.length = n) :
    (BitVec.ofNat (8 * n) (beNat bs)).toNat = beNat bs := by
  rw [BitVec.toNat_ofNat, Nat.pow_mul, ← h]
  exact Nat.mod_eq_of_lt (beNat_lt bs)

theorem be16_toNat {bs : List Byte} (h : bs.length = 2) : (be16 bs).toNat = beNat bs := ofNat_beNat_toNat h

theorem be32_toNat {bs : List Byte} (h : bs.length = 4) : (be32 bs).toNat = beNat bs := ofNat_beNat_toNat h

theorem be64_toNat {bs : List Byte} (h : bs.length = 8) : (be64 bs).toNat = beNat bs := ofNat_beNat_toNat h

/-- The digits above the lowest `n` give the first byte, the lowest `n` the others. -/
theorem beNat_bytesBe (v n : Nat) : beNat (bytesBe v n) = v % 256 ^ n := by
  induction n with
  | zero => exact (Nat.mod_one v).symm
  | succ n ih =>
    calc beNat (bytesBe v (n + 1))
        = v / 256 ^ n % 256 * 256 ^ n + v % 256 ^ n := by rw [bytesBe, beNat_cons, bytesBe_length, ih, BitVec.toNat_ofNat]
      _ = v % 256 ^ (n + 1) := by rw [Nat.pow_succ, Nat.mod_mul]; ring

/-- A slice of a 32-bit value at a byte boundary is one of its base-256 digits. -/
theorem bytesBe32_eq_bytesBe (v : BitVec 32) : bytesBe32 v = bytesBe v.toNat 4 := by
  simp [bytesBe32, bytesBe, BitVec.extractLsb', Nat.shiftRight_eq_div_pow]

theorem be32_bytesBe32 (v : BitVec 32) : be32 (bytesBe32 v) = v := by
  apply BitVec.eq_of_toNat_eq
  rw [be32_toNat rfl, bytesBe32_eq_bytesBe, beNat_bytesBe]
  exact Nat.mod_eq_of_lt v.isLt

/-- Settles O42: the assembled value is the number its bytes write in base 256, and splitting writes that number's digits. -/
theorem bigEndianAssembly : Obligations.BigEndianAssembly := by
  unfold Obligations.BigEndianAssembly
  refine ⟨fun b0 b1 => ?_, fun b0 b1 b2 b3 => ?_, fun b0 b1 b2 b3 b4 b5 b6 b7 => ?_,
    fun v => ⟨be32_bytesBe32 v, rfl⟩, fun v n => ⟨bytesBe_length v n, beNat_bytesBe v n⟩⟩
  · rw [be16_toNat rfl]
    simp [beNat_cons]
  · rw [be32_toNat rfl]
    simp [beNat_cons, Nat.add_assoc]
  · rw [be64_toNat rfl]
    simp [beNat_cons, Nat.add_assoc]

end Sys2Proof.Machine
end

section
/-! The checksum port (41_checksum.md): one operation of the port on the accumulators, updates in a row as the fold `cksFrom`, the
closed form by appending one byte at a time, and the difference one changed byte makes. -/

namespace Sys2Proof.Machine

/-! ### The operations of the port -/

theorem exec_cksClr (s : State) : exec .cksClr s = .next (setCks (0, 0) s) := rfl

theorem exec_cksUpd (b : Byte) (s : State) : exec (.cksUpd b) s = .next (setCks (cksStep (s.cksA, s.cksB) b) s) := rfl

theorem exec_cksRd (s : State) : exec .cksRd s = .next (respond (.checksum s.cksA s.cksB) s) := rfl

theorem exec_cksSpan (bs : List Byte) (s : State) :
    exec (.cksSpan bs) s = .next (respond (.checksum (cks bs).1 (cks bs).2) (setCks (cks bs) s)) := rfl

theorem cksStep_fst_toNat (ab : Byte × Byte) (b : Byte) : (cksStep ab b).1.toNat = (ab.1.toNat + b.toNat) % 256 :=
  BitVec.toNat_add ab.1 b

/-- `B` grows by the new `A`, not by the byte (41_checksum.md R112). -/
theorem cksStep_snd_toNat (ab : Byte × Byte) (b : Byte) :
    (cksStep ab b).2.toNat = (ab.2.toNat + (cksStep ab b).1.toNat) % 256 := BitVec.toNat_add ab.2 (cksStep ab b).1

/-- Settles O9: the operation only clears the accumulators. -/
theorem checksumClear : Obligations.ChecksumClear := fun s _ _ => ⟨exec_cksClr s, rfl⟩

/-- Settles O10, with the two components of `cksStep` for the new accumulators. -/
theorem checksumUpdate : Obligations.ChecksumUpdate := fun b s _ _ =>
  ⟨⟨_, _, cksStep_fst_toNat (s.cksA, s.cksB) b, cksStep_snd_toNat (s.cksA, s.cksB) b, exec_cksUpd b s⟩, rfl⟩

/-- Settles O11: the operation only answers. -/
theorem checksumRead : Obligations.ChecksumRead := exec_cksRd

/-! ### Updates in a row -/

theorem execAll_cons_of_next {i : Instr} {s t : State} (h : exec i s = .next t) (rest : List Instr) :
    execAll (i :: rest) s = execAll rest t := by
  rw [execAll, h]

theorem cksFrom_cons (ab : Byte × Byte) (b : Byte) (bs : List Byte) : cksFrom ab (b :: bs) = cksFrom (cksStep ab b) bs := rfl

theorem cks_append (bs t : List Byte) : cks (bs ++ t) = cksFrom (cks bs) t := List.foldl_append

theorem cks_concat (bs : List Byte) (b : Byte) : cks (bs ++ [b]) = cksStep (cks bs) b := cks_append bs [b]

/-- Updates with each byte of a span run the fold on the visible accumulators. -/
theorem execAll_cksUpd (bs : List Byte) (s : State) :
    execAll (bs.map .cksUpd) s = .next (setCks (cksFrom (s.cksA, s.cksB) bs) s) := by
  induction bs generalizing s with
  | nil => rfl
  | cons b bs ih =>
    rw [List.map_cons, execAll_cons_of_next (exec_cksUpd b s), ih, cksFrom_cons]
    rfl

/-- Settles O14: the updates continue the fold that `cks bs` began. -/
theorem checksumIncremental : Obligations.ChecksumIncremental := by
  unfold Obligations.ChecksumIncremental
  intro bs t s hA hB
  rw [execAll_cksUpd, hA, hB, cks_append]
  rfl

/-- Settles O12: after the clear the updates fold from `(0, 0)`, which is `cks`, and the read answers what they left. -/
theorem checksumSpanIsClearUpdateRead : Obligations.ChecksumSpanIsClearUpdateRead := by
  unfold Obligations.ChecksumSpanIsClearUpdateRead
  intro bs s
  refine ⟨?_, exec_cksSpan bs s⟩
  rw [execAll_cons_of_next (exec_cksClr s), execAll_append, execAll_cksUpd]
  rfl

/-! ### The closed form (R117) -/

theorem byteSum_concat (bs : List Byte) (b : Byte) : byteSum (bs ++ [b]) = byteSum bs + b.toNat := by
  induction bs with
  | nil => simp [byteSum]
  | cons c bs ih => simp [byteSum, ih, Nat.add_assoc]

/-- One more byte raises the weight of every byte by one, so the plain sum is added. -/
theorem weightedSum_concat (bs : List Byte) (b : Byte) :
    weightedSum (bs ++ [b]) = weightedSum bs + byteSum (bs ++ [b]) := by
  induction bs with
  | nil => simp [weightedSum, byteSum]
  | cons c bs ih =>
    simp only [List.cons_append, weightedSum, byteSum, List.length_append, List.length_singleton, ih]
    ring

theorem cks_fst_toNat (bs : List Byte) : (cks bs).1.toNat = byteSum bs % 256 := by
  induction bs using List.reverseRecOn with
  | nil => rfl
  | append_singleton bs b ih => rw [cks_concat, cksStep_fst_toNat, ih, byteSum_concat, Nat.mod_add_mod]

theorem cks_snd_toNat (bs : List Byte) : (cks bs).2.toNat = weightedSum bs % 256 := by
  induction bs using List.reverseRecOn with
  | nil => rfl
  | append_singleton bs b ih =>
    rw [cks_concat, cksStep_snd_toNat, ih, ← cks_concat, cks_fst_toNat, weightedSum_concat, ← Nat.add_mod]

/-- Settles O13, by induction from the end of the list: the last byte is the one the accumulators took last. -/
theorem checksumClosedForm : Obligations.ChecksumClosedForm := fun bs => ⟨cks_fst_toNat bs, cks_snd_toNat bs⟩

/-! ### One changed byte (R120) -/

theorem byteAt_set_same {f : List Byte} {i : Nat} (h : i < f.length) (v : Byte) : byteAt (f.set i v) i = v := by
  simp [byteAt, h]

theorem byteAt_set_other (f : List Byte) {i j : Nat} (h : i ≠ j) (v : Byte) : byteAt (f.set i v) j = byteAt f j := by
  simp [byteAt, List.getElem?_set_ne h]

theorem byteAt_take {i n : Nat} (h : i < n) (f : List Byte) : byteAt (f.take n) i = byteAt f i := by
  simp [byteAt, List.getElem?_take_of_lt h]

/-- The old byte leaves the sum and the new one enters it. -/
theorem byteSum_set {f : List Byte} {i : Nat} (h : i < f.length) (v : Byte) :
    byteSum (f.set i v) + (byteAt f i).toNat = byteSum f + v.toNat := by
  induction f generalizing i with
  | nil => simp at h
  | cons b f ih =>
    cases i with
    | zero =>
      simp only [List.set_cons_zero, byteSum, byteAt, List.getD_cons_zero]
      omega
    | succ i =>
      have := ih (Nat.lt_of_succ_lt_succ h)
      simp only [byteAt] at this
      simp only [List.set_cons_succ, byteSum, byteAt, List.getD_cons_succ]
      omega

/-- `A` is a sum modulo 256 and a byte is below 256, so no other byte in its place gives the same `A`. -/
theorem cks_set_fst_ne {f : List Byte} {i : Nat} {v : Byte} (h : i < f.length) (hv : v ≠ byteAt f i) :
    (cks (f.set i v)).1 ≠ (cks f).1 := by
  intro heq
  have hmod : byteSum (f.set i v) % 256 = byteSum f % 256 := by rw [← cks_fst_toNat, ← cks_fst_toNat, heq]
  have hsum := byteSum_set h v
  have hlt := v.isLt
  have hlt' := (byteAt f i).isLt
  exact hv (BitVec.eq_of_toNat_eq (by omega))

theorem coveredSum_set_fst_ne {f : List Byte} {fl i : Nat} {v : Byte} (hf : fl ≤ f.length) (hi : i + 2 < fl)
    (hv : v ≠ byteAt f i) : (coveredSum (f.set i v) fl).1 ≠ (coveredSum f fl).1 := by
  have hi' : i < fl - 2 := by omega
  rw [coveredSum, coveredSum, List.take_set]
  refine cks_set_fst_ne ?_ ?_
  · rw [List.length_take]
    omega
  · rwa [byteAt_take hi']

theorem trailer_set_covered (f : List Byte) {fl i : Nat} (hi : i + 2 < fl) (v : Byte) :
    trailer (f.set i v) fl = trailer f fl := by
  rw [trailer, byteAt_set_other f (by omega) v, byteAt_set_other f (by omega) v, trailer]

theorem coveredSum_set_trailer (f : List Byte) {fl i : Nat} (hi : fl ≤ i + 2) (v : Byte) :
    coveredSum (f.set i v) fl = coveredSum f fl := by
  rw [coveredSum, List.take_set, List.set_eq_of_length_le, coveredSum]
  rw [List.length_take]
  omega

theorem trailer_set_ne {f : List Byte} {fl i : Nat} {v : Byte} (hf : fl ≤ f.length) (hi : fl ≤ i + 2) (hlt : i < fl)
    (hv : v ≠ byteAt f i) : trailer (f.set i v) fl ≠ trailer f fl := by
  intro heq
  obtain ⟨hA, hB⟩ := Prod.mk.inj heq
  have hself : byteAt (f.set i v) i = byteAt f i := by
    obtain h | h : i = fl - 2 ∨ i = fl - 1 := by omega
    · rwa [h] at hA ⊢
    · rwa [h] at hB ⊢
  exact hv ((byteAt_set_same (by omega) v).symm.trans hself)

/-- A change of one byte of the frame moves one side of the comparison and leaves the other. -/
theorem cksCheck_set_eq_false {f : List Byte} {fl i : Nat} {v : Byte} (hf : fl ≤ f.length) (hi : i < fl)
    (hv : v ≠ byteAt f i) (hc : cksCheck f fl = true) : cksCheck (f.set i v) fl = false := by
  have hpair : coveredSum f fl = trailer f fl := of_decide_eq_true hc
  refine decide_eq_false fun heq => ?_
  by_cases hcov : i + 2 < fl
  case pos =>
    rw [trailer_set_covered f hcov, ← hpair] at heq
    exact coveredSum_set_fst_ne hf hcov hv (congrArg Prod.fst heq)
  case neg =>
    have htr : fl ≤ i + 2 := by omega
    rw [coveredSum_set_trailer f htr, hpair] at heq
    exact trailer_set_ne hf htr hi hv heq.symm

theorem xor_bit_ne (x : Byte) {k : Nat} (hk : k < 8) : x ^^^ (1#8 <<< k) ≠ x := by
  intro h
  have hbit := congrArg (BitVec.getLsbD · k) h
  simp [hk] at hbit

/-- Settles O15: a flipped bit makes another byte, and another byte in any one place of the frame is detected. -/
theorem singleBitFlipDetected : Obligations.SingleBitFlipDetected := by
  unfold Obligations.SingleBitFlipDetected
  intro f fl i k _ hf hk
  have hv := xor_bit_ne (byteAt f i) hk
  exact ⟨fun hi => coveredSum_set_fst_ne hf hi hv, fun hi hc => cksCheck_set_eq_false hf hi hv hc⟩

end Sys2Proof.Machine
end

section
/-! The synchronizer (42_synchronizer.md): the marker matcher, one equation per case, operations in a row and steps in Scanning;
then a frame collected byte by byte, as what `rxFrame` reads of the buffer. -/

namespace Sys2Proof.Machine

/-! ### The marker matcher -/

theorem exec_synByte (b : Byte) (s : State) : exec (.synByte b) s = .next (matchMarker b s) := rfl

theorem exec_synDeadline (s : State) : exec .synDeadline s = .next (raiseError .syncTimeout (setHalf false s)) := rfl

theorem matchMarker_candidate {s : State} (hs : s.synHalf = false) : matchMarker Config.sync0 s = setHalf true s := by
  simp [matchMarker, hs]

theorem matchMarker_noise {b : Byte} {s : State} (hs : s.synHalf = false) (hb : b ≠ Config.sync0) :
    matchMarker b s = s := by
  simp [matchMarker, hs, hb]

theorem matchMarker_match {s : State} (hs : s.synHalf = true) : matchMarker Config.sync1 s = enterSynced s := by
  simp [matchMarker, hs]

theorem matchMarker_failedPair {b : Byte} {s : State} (hs : s.synHalf = true) (hb : b ≠ Config.sync1) :
    matchMarker b s = setHalf false s := by
  simp [matchMarker, hs, hb]

/-- A half match noted and dropped again leaves no trace. -/
theorem setHalf_false_setHalf_true {s : State} (hs : s.synHalf = false) : setHalf false (setHalf true s) = s := by
  rw [setHalf, ← hs]
  rfl

/-- Settles O16: one case of the matcher per clause. -/
theorem markerMatching : Obligations.MarkerMatching := by
  unfold Obligations.MarkerMatching
  intro b s
  refine ⟨?_, ?_, ?_, ?_, rfl⟩
  · rintro hs rfl
    exact congrArg _ (matchMarker_candidate hs)
  · intro hs hb
    exact congrArg _ (matchMarker_noise hs hb)
  · rintro hs rfl
    exact congrArg _ (matchMarker_match hs)
  · intro hs hb
    exact congrArg _ (matchMarker_failedPair hs hb)

/-- A pair that fails at its second byte is as if neither byte had arrived (42_synchronizer.md R130). -/
theorem execAll_failedPair {b : Byte} {s : State} (hb : b ≠ Config.sync1) (hs : s.synHalf = false) (rest : List Instr) :
    execAll (.synByte Config.sync0 :: .synByte b :: rest) s = execAll rest s := by
  rw [execAll_cons_of_next (exec_synByte _ s), matchMarker_candidate hs, execAll_cons_of_next (exec_synByte _ _),
    matchMarker_failedPair rfl hb, setHalf_false_setHalf_true hs]

/-- Settles O17: after the failed pair the rest runs from the state before it, where a lone 0x65 is noise. -/
theorem failedPairDiscarded : Obligations.FailedPairDiscarded := by
  unfold Obligations.FailedPairDiscarded
  intro b s hb hs
  refine ⟨execAll_failedPair hb hs [], ?_, fun c => execAll_failedPair hb hs [.synByte c]⟩
  calc execAll [.synByte 0x75, .synByte 0x75, .synByte 0x65] s
      = exec (.synByte 0x65) s := execAll_failedPair (by decide) hs [.synByte 0x65]
    _ = .next s := congrArg _ (matchMarker_noise hs (by decide))

/-- Settles O18: the deadline drops the half match, so the 0x65 that follows is noise. -/
theorem syncDeadline : Obligations.SyncDeadline := by
  unfold Obligations.SyncDeadline
  refine fun s => ⟨exec_synDeadline s, ?_, rfl⟩
  rw [execAll_cons_of_next (exec_synDeadline s)]
  exact congrArg _ (matchMarker_noise rfl (by decide))

/-! ### Steps on received bytes -/

theorem run_succ_of_step {s t : State} (h : step s = .next t) (n : Nat) : run (n + 1) s = run n t := by
  rw [Nat.add_comm]
  exact run_add n ((run_one s).trans h)

theorem step_rxByte_scanning {b : Byte} {s : State} {rest : List Stimulus} (hs : s.synState = .scanning)
    (hx : s.stimuli = .rxByte b :: rest) : step s = .next (matchMarker b { s with stimuli := rest }) :=
  step_of_decode_ok (i := .synByte b) hx (by rw [hs]; rfl)

theorem step_rxByte_synced {b : Byte} {s : State} {rest : List Stimulus} (hs : s.synState = .synced)
    (hx : s.stimuli = .rxByte b :: rest) : step s = execRxcByte b { s with stimuli := rest } :=
  step_of_decode_ok (i := .rxcByte b) hx (by rw [hs]; rfl)

theorem step_candidate {s : State} {rest : List Stimulus} (hs : s.synState = .scanning) (hh : s.synHalf = false)
    (hx : s.stimuli = .rxByte Config.sync0 :: rest) : step s = .next (setHalf true { s with stimuli := rest }) :=
  (step_rxByte_scanning hs hx).trans (congrArg _ (matchMarker_candidate hh))

theorem step_match {s : State} {rest : List Stimulus} (hs : s.synState = .scanning) (hh : s.synHalf = true)
    (hx : s.stimuli = .rxByte Config.sync1 :: rest) : step s = .next (enterSynced { s with stimuli := rest }) :=
  (step_rxByte_scanning hs hx).trans (congrArg _ (matchMarker_match hh))

/-- The two marker bytes take a Scanning engine with no half match to Synced in two steps (42_synchronizer.md R133). -/
theorem run_marker {s : State} {rest : List Stimulus} (hs : s.synState = .scanning) (hh : s.synHalf = false)
    (hx : s.stimuli = .rxByte Config.sync0 :: .rxByte Config.sync1 :: rest) :
    run 2 s = .next (enterSynced { s with stimuli := rest }) := by
  rw [run_succ_of_step (step_candidate hs hh hx), run_one]
  exact step_match (s := setHalf true _) hs rfl rfl

/-- Settles O19: the two steps end in `enterSynced`, which puts both marker bytes in place and posts nothing. -/
theorem resyncTakesTwoBytes : Obligations.ResyncTakesTwoBytes := by
  unfold Obligations.ResyncTakesTwoBytes
  intro s rest hs hh hx
  obtain ⟨-, -, hcell0, hcell1, -⟩ := syncedInv_enterSynced { s with stimuli := rest }
  exact ⟨_, run_marker hs hh hx, rfl, rfl, rfl, rfl, hcell0, hcell1, rfl, rfl⟩

/-! ### A frame collected byte by byte -/

theorem rxFrame_eq_some {s : State} {bs : List Byte} :
    rxFrame s = some bs ↔ bs.length = s.rxIdx.toNat ∧ ∀ a < s.rxIdx.toNat, memRead s.rxBuf a = bs[a]? := by
  simp [rxFrame, memSpan_eq_some]

theorem rxFrame_enterSynced (s : State) : rxFrame (enterSynced s) = some [Config.sync0, Config.sync1] := by
  refine rxFrame_eq_some.2 ⟨rfl, fun a ha => ?_⟩
  match a, ha with
  | 0, _ => simp [memRead_memWrite_other]
  | 1, _ => simp
  | a + 2, ha => simp at ha

theorem rxRead_of_rxFrame {s : State} {bs : List Byte} (h : rxFrame s = some bs) (a : Nat) : rxRead s a = bs[a]? := by
  obtain ⟨hlen, hcells⟩ := rxFrame_eq_some.1 h
  by_cases ha : a < s.rxIdx.toNat
  · rw [rxRead, if_pos ha, hcells a ha]
  · rw [rxRead, if_neg ha, List.getElem?_eq_none (by omega)]

/-- The stored byte is the next of the frame (43_collector.md R142). -/
theorem rxFrame_storeRx {s : State} {bs : List Byte} (b : Byte) (hlt : s.rxIdx.toNat < 261) (h : rxFrame s = some bs) :
    rxFrame (storeRx b s) = some (bs ++ [b]) := by
  obtain ⟨hlen, hcells⟩ := rxFrame_eq_some.1 h
  have hidx : (storeRx b s).rxIdx.toNat = s.rxIdx.toNat + 1 := rxIdx_succ hlt
  refine rxFrame_eq_some.2 ⟨by rw [hidx, List.length_append, hlen]; rfl, fun a ha => ?_⟩
  rw [storeRx_rxBuf]
  by_cases hlast : a = s.rxIdx.toNat
  · rw [hlast, memRead_memWrite_same, ← hlen, List.getElem?_concat_length]
  · have hbelow : a < s.rxIdx.toNat := by omega
    rw [memRead_memWrite_other _ _ hlast, hcells a hbelow, List.getElem?_append_left (by omega)]

/-- The completion test of 43_collector.md R142, on the bytes collected. -/
theorem frameDone_iff_of_rxFrame {s : State} {bs : List Byte} (h : rxFrame s = some bs) :
    FrameDone s ↔ 4 ≤ bs.length ∧ bs.length = announced bs + 6 := by
  obtain ⟨hlen, -⟩ := rxFrame_eq_some.1 h
  rw [FrameDone, rxRead_of_rxFrame h, ← hlen, and_congr_right_iff]
  intro h4
  have h3 : bs[3]? = some (byteAt bs 3) := by
    rw [byteAt, List.getD_eq_getElem _ _ (by omega), List.getElem?_eq_getElem]
  simp [h3, announced]

/-- `RXC.BYTE` on a buffer whose bytes are known (43_collector.md R142): the byte joins them, and the frame they make is decoded
once it is complete. -/
theorem execRxcByte_of_rxFrame {s : State} {bs : List Byte} (b : Byte) (hlt : s.rxIdx.toNat < 261)
    (h : rxFrame s = some bs) :
    (¬ FrameDone (storeRx b s) ∧ execRxcByte b s = .next (storeRx b s)) ∨
    (FrameDone (storeRx b s) ∧ execRxcByte b s =
      .next (postResult (decodeFrame (bs ++ [b]) s.expDs s.expFd (unitsG s)) (toScanning (storeRx b s)))) := by
  obtain ⟨hlen, hcells⟩ := rxFrame_eq_some.1 h
  have hsome : ∀ a < s.rxIdx.toNat, (memRead s.rxBuf a).isSome := fun a ha => by
    rw [hcells a ha, List.getElem?_eq_getElem (by omega)]
    rfl
  obtain hgoes | ⟨hdone, buf, hbuf, hexec⟩ := execRxcByte_cases b hlt hsome
  · exact .inl hgoes
  · rw [rxFrame_storeRx b hlt h, Option.some.injEq] at hbuf
    exact .inr ⟨hdone, hbuf ▸ hexec⟩

theorem announced_append {bs : List Byte} (h : 4 ≤ bs.length) (cs : List Byte) : announced (bs ++ cs) = announced bs := by
  rw [announced, byteAt, List.getD_append _ _ _ _ (by omega), announced, byteAt]

/-- A frame that announces its own length is complete at its last byte and not before. -/
theorem frameDone_iff_none_left {s : State} {bs cs : List Byte} (h : rxFrame s = some bs)
    (h6 : 6 ≤ (bs ++ cs).length) (hlen : (bs ++ cs).length = announced (bs ++ cs) + 6) : FrameDone s ↔ cs = [] := by
  rw [frameDone_iff_of_rxFrame h]
  constructor
  · rintro ⟨h4, hdone⟩
    rw [announced_append h4, List.length_append] at hlen
    exact List.length_eq_zero_iff.1 (by omega)
  · rintro rfl
    rw [List.append_nil] at h6 hlen
    exact ⟨by omega, hlen⟩

/-- The receive path back in Scanning with the given buffer, the given stimuli waiting and everything else as it was. -/
def rescanning (rb : Memory) (rest : List Stimulus) (s : State) : State :=
  { toScanning s with rxBuf := rb, stimuli := rest }

theorem rescanning_of_scanning {s : State} (hs : s.synState = .scanning) (rb : Memory) (rest : List Stimulus) :
    rescanning rb rest s = { s with stimuli := rest, synHalf := false, rxIdx := 0, rxBuf := rb } := by
  rw [rescanning, toScanning, ← hs]

/-- In Synced, one byte of a frame that announces its own length: only the last byte has the frame decoded. -/
theorem step_collects {b : Byte} {got cs : List Byte} {s : State} {xs : List Stimulus} (hs : s.synState = .synced)
    (hgot : rxFrame s = some got) (hx : s.stimuli = .rxByte b :: xs) (h6 : 6 ≤ (got ++ [b] ++ cs).length)
    (hlen : (got ++ [b] ++ cs).length = announced (got ++ [b] ++ cs) + 6) :
    rxFrame (storeRx b { s with stimuli := xs }) = some (got ++ [b]) ∧
    ((cs ≠ [] ∧ step s = .next (storeRx b { s with stimuli := xs })) ∨
     (cs = [] ∧ step s = .next (postResult (decodeFrame (got ++ [b]) s.expDs s.expFd (unitsG s))
       (toScanning (storeRx b { s with stimuli := xs }))))) := by
  have hidx : s.rxIdx.toNat < 261 := by
    have hbyte : announced (got ++ [b] ++ cs) < 256 := (byteAt (got ++ [b] ++ cs) 3).isLt
    obtain ⟨hgotlen, -⟩ := rxFrame_eq_some.1 hgot
    simp only [List.length_append, List.length_singleton] at hlen
    omega
  have hframe : rxFrame (storeRx b { s with stimuli := xs }) = some (got ++ [b]) := rxFrame_storeRx b hidx hgot
  rw [step_rxByte_synced hs hx]
  refine ⟨hframe, ?_⟩
  rw [ne_eq, ← frameDone_iff_none_left hframe h6 hlen]
  exact execRxcByte_of_rxFrame (s := { s with stimuli := xs }) b hidx hgot

/-- In Synced, the bytes still to come of a frame are collected one by one and the last has the whole frame decoded. -/
theorem run_collects {rest : List Stimulus} {bs : List Byte} {b : Byte} {got : List Byte} {s : State}
    (hs : s.synState = .synced) (hgot : rxFrame s = some got) (hx : s.stimuli = (b :: bs).map .rxByte ++ rest)
    (h6 : 6 ≤ (got ++ b :: bs).length) (hlen : (got ++ b :: bs).length = announced (got ++ b :: bs) + 6) :
    ∃ rb, run (bs.length + 1) s =
      .next (postResult (decodeFrame (got ++ b :: bs) s.expDs s.expFd (unitsG s)) (rescanning rb rest s)) := by
  induction bs generalizing b got s with
  | nil =>
    obtain ⟨-, ⟨hne, -⟩ | ⟨-, hstep⟩⟩ := step_collects (cs := []) hs hgot hx (by simpa using h6) (by simpa using hlen)
    · exact absurd rfl hne
    · exact ⟨_, (run_one s).trans hstep⟩
  | cons c bs ih =>
    rw [List.append_cons] at h6 hlen ⊢
    obtain ⟨hframe, ⟨-, hstep⟩ | ⟨hnil, -⟩⟩ := step_collects hs hgot hx h6 hlen
    · obtain ⟨rb, hrun⟩ := ih (s := storeRx b { s with stimuli := (c :: bs).map .rxByte ++ rest }) hs hframe rfl h6 hlen
      exact ⟨rb, (run_succ_of_step hstep _).trans hrun⟩
    · cases hnil

/-- A frame of six or more bytes is its marker and at least one byte more. -/
theorem eq_marker_cons {f : List Byte} (h6 : 6 ≤ f.length) (h0 : byteAt f 0 = Config.sync0)
    (h1 : byteAt f 1 = Config.sync1) : ∃ b bs, f = Config.sync0 :: Config.sync1 :: b :: bs := by
  match f, h6 with
  | _ :: _ :: b :: bs, _ =>
    cases h0
    cases h1
    exact ⟨b, bs, rfl⟩

/-- Settles O25: the marker takes two steps to Synced, from where the other bytes are collected and the frame is decoded. -/
theorem streamedFrameDecodedOnce : Obligations.StreamedFrameDecodedOnce := by
  unfold Obligations.StreamedFrameDecodedOnce
  intro f s rest hs hh hx h6 hlen h0 h1
  obtain ⟨b, bs, rfl⟩ := eq_marker_cons h6 h0 h1
  obtain ⟨rb, hcollect⟩ := run_collects (s := enterSynced { s with stimuli := (b :: bs).map .rxByte ++ rest }) rfl
    (rxFrame_enterSynced _) rfl h6 hlen
  have hrun : run (2 + (bs.length + 1)) s = .next (postResult
      (decodeFrame (Config.sync0 :: Config.sync1 :: b :: bs) s.expDs s.expFd (unitsG s)) (rescanning rb rest s)) :=
    (run_add _ (run_marker hs hh hx)).trans hcollect
  have hcount : (Config.sync0 :: Config.sync1 :: b :: bs).length = 2 + (bs.length + 1) := Nat.add_comm (bs.length + 1) 2
  refine ⟨rb, ?_⟩
  rw [hcount, hrun, rescanning_of_scanning hs]
  cases decodeFrame (Config.sync0 :: Config.sync1 :: b :: bs) s.expDs s.expFd (unitsG s) <;> rfl

end Sys2Proof.Machine
end

section
/-! The collector (43_collector.md): the errors that are left when a frame has its whole length and its marker, the frame that the
invariant lets the collector complete, and the rows of the transition table. -/

namespace Sys2Proof.Machine

/-! ### The errors of a decode -/

/-- The errors a completion posts in stream mode (43_collector.md R142). -/
def StreamError (e : ErrorEvent) : Prop :=
  (∃ p q, e = .checksumMismatch p q) ∨ (∃ d, e = .unexpectedDescriptorSet d) ∨
    (∃ d, e = .unexpectedFieldDescriptor d) ∨ (∃ o, e = .malformedField o) ∨ ∃ d, e = .unsupportedField d

theorem not_streamError_truncatedFrame : ¬ StreamError .truncatedFrame := by simp [StreamError]

theorem not_streamError_badSync (p : Byte × Byte) : ¬ StreamError (.badSync p) := by simp [StreamError]

theorem streamError_of_walkFields {fds : BitVec 256} {n off : Nat} {p : List Byte} {e : ErrorEvent}
    (h : walkFields fds n off p = .error e) : StreamError e := by
  obtain ho | hd := walkFields_error h
  · exact .inr (.inr (.inr (.inl ho)))
  · exact .inr (.inr (.inl hd))

/-- Checks 4 and 5 and the interpretation: beside the marker's error, only errors of stream mode (44_decoder.md R156). -/
theorem decodePayload_error {buf : List Byte} {ds : Byte} {fds : BitVec 256} {g : Bool} {e : ErrorEvent}
    (h : decodePayload buf ds fds g = .err e) : (syncOk buf = false ∧ ∃ p, e = .badSync p) ∨ StreamError e := by
  obtain ⟨_, hw, hr⟩ | ⟨raw, -, ⟨hs, hr⟩ | ⟨-, ⟨fd, -, hr⟩ | ⟨vs, -, hr⟩⟩⟩ := decodePayload_cases buf ds fds g <;>
    rw [hr] at h <;> cases h
  · exact .inr (streamError_of_walkFields hw)
  · exact .inl ⟨hs, _, rfl⟩
  · exact .inr (.inr (.inr (.inr (.inr ⟨fd, rfl⟩))))

/-- Which check fails decides the error: check 1 and check 5 have their own, every other error is one of stream mode
(44_decoder.md R156). -/
theorem decodeFrame_error {buf : List Byte} {ds : Byte} {fds : BitVec 256} {g : Bool} {e : ErrorEvent}
    (h : decodeFrame buf ds fds g = .err e) :
    (¬ HoldsFrame buf ∧ e = .truncatedFrame) ∨ (syncOk buf = false ∧ ∃ p, e = .badSync p) ∨ StreamError e := by
  unfold decodeFrame at h
  split at h
  case isTrue hlen =>
    cases h
    exact .inl ⟨fun hh => by simp [(lengthOk_iff buf).2 hh] at hlen, rfl⟩
  case isFalse =>
    split at h
    case isTrue => cases h; exact .inr (.inr (.inl ⟨_, _, rfl⟩))
    case isFalse =>
      split at h
      case isTrue => cases h; exact .inr (.inr (.inr (.inl ⟨_, rfl⟩)))
      case isFalse => exact .inr (decodePayload_error h)

/-- Checks 1 and 5 pass for a whole frame with its marker (43_collector.md R144). -/
theorem streamError_of_decodeFrame {buf : List Byte} {ds : Byte} {fds : BitVec 256} {g : Bool} {e : ErrorEvent}
    (hholds : HoldsFrame buf) (hsync : syncOk buf = true) (h : decodeFrame buf ds fds g = .err e) : StreamError e := by
  obtain ⟨hn, -⟩ | ⟨hs, -⟩ | he := decodeFrame_error h
  · exact absurd hholds hn
  · rw [hsync] at hs
    cases hs
  · exact he

/-! ### The frame the collector completes -/

theorem holdsFrame_of_frameDone {s : State} {buf : List Byte} (hb : rxFrame s = some buf) (hd : FrameDone s) :
    HoldsFrame buf := by
  obtain ⟨-, hlen⟩ := (frameDone_iff_of_rxFrame hb).1 hd
  exact ⟨by omega, by omega⟩

theorem byteAt_of_getElem? {buf : List Byte} {a : Nat} {b : Byte} (h : buf[a]? = some b) : byteAt buf a = b := by
  simp [byteAt, h]

/-- In Synced the marker is in place, below the cell the next byte goes to (10_state.md R37). -/
theorem syncOk_of_syncedInv {s : State} {b : Byte} {buf : List Byte} (h : SyncedInv s)
    (hb : rxFrame (storeRx b s) = some buf) : syncOk buf = true := by
  have hlt := syncedInv_idx h
  obtain ⟨-, h2, h0, h1, -⟩ := h
  rw [← rxRead_storeRx_below b hlt (by omega), rxRead_of_rxFrame hb] at h0 h1
  exact (syncOk_iff buf).2 ⟨byteAt_of_getElem? h0, byteAt_of_getElem? h1⟩

theorem exec_rxcByte (b : Byte) (s : State) : exec (.rxcByte b) s = execRxcByte b s := rfl

theorem exec_rxcDeadline (s : State) :
    exec .rxcDeadline s = .next (raiseError .truncatedFrame (toScanning s)) := rfl

/-- A completed frame has exactly one output, its record or its error (43_collector.md R146). -/
theorem postResult_outputs (r : DecodeResult) (s : State) :
    (∃ rec, (postResult r s).records = s.records ++ [rec] ∧ (postResult r s).errors = s.errors) ∨
    (∃ e, r = .err e ∧ (postResult r s).records = s.records ∧ (postResult r s).errors = s.errors ++ [e]) := by
  cases r with
  | ok rec => exact .inl ⟨rec, rfl, rfl⟩
  | err e => exact .inr ⟨e, rfl, rfl, rfl⟩

/-- In stream mode a byte posts no error, or one of the five kinds (43_collector.md R142, R144). -/
theorem execRxcByte_posts {b : Byte} {s t : State} (hi : SyncedInv s) (h : execRxcByte b s = .next t) :
    t.errors = s.errors ∨ ∃ e, t.errors = s.errors ++ [e] ∧ StreamError e := by
  obtain ⟨-, ⟨rfl, -⟩ | ⟨hd, buf, hb, rfl⟩⟩ := execRxcByte_next h
  · exact .inl (storeRx_errors b s)
  · obtain ⟨_, -, herr⟩ | ⟨e, hdec, -, herr⟩ :=
      postResult_outputs (decodeFrame buf s.expDs s.expFd (unitsG s)) (toScanning (storeRx b s))
    · exact .inl herr
    · exact .inr ⟨e, herr,
        streamError_of_decodeFrame (holdsFrame_of_frameDone hb hd) (syncOk_of_syncedInv hi hb) hdec⟩

theorem execRxcByte_errors_ne {b : Byte} {s t : State} {e : ErrorEvent} (hi : SyncedInv s)
    (h : execRxcByte b s = .next t) (he : ¬ StreamError e) : t.errors ≠ s.errors ++ [e] := by
  obtain herr | ⟨e', herr, he'⟩ := execRxcByte_posts hi h <;> rw [herr]
  · simp
  · intro heq
    obtain rfl : e' = e := by simpa using heq
    exact he he'

/-- Settles O22: the frame a completion hands to the decoder holds what its length byte announces and starts with the marker. -/
theorem streamModeErrors : Obligations.StreamModeErrors := by
  unfold Obligations.StreamModeErrors
  intro b s t hi hs h
  obtain herr | ⟨e, herr, he⟩ := execRxcByte_posts (hi.synced hs) h
  · exact .inl herr
  · refine .inr ⟨e, herr, ?_, ?_, he⟩
    · rintro rfl
      exact not_streamError_truncatedFrame he
    · rintro p rfl
      exact not_streamError_badSync p he

/-- Settles O20: the completion test of the model is the one of R142, and what it completes is the frame `rxFrame` reads. -/
theorem collectByte : Obligations.CollectByte := by
  unfold Obligations.CollectByte
  intro b s hlt hcells u
  refine ⟨fun hgo => ?_, fun hdone => ?_, fun hi hs t h => ?_, rfl⟩
  · have hnot : ¬ FrameDone (storeRx b s) := by
      rw [frameDone_iff b hlt]
      rintro ⟨h4, n, hn, hd⟩
      obtain hshort | ⟨m, hm, hne⟩ := hgo
      · omega
      · rw [hn, Option.some.injEq] at hm
        exact hne (hm ▸ hd)
    obtain ⟨-, h⟩ | ⟨hd, -⟩ := execRxcByte_cases b hlt hcells
    · exact h
    · exact absurd hd hnot
  · obtain ⟨hn, -⟩ | ⟨-, buf, hbuf, h⟩ := execRxcByte_cases b hlt hcells
    · exact absurd ((frameDone_iff b hlt).2 hdone) hn
    · obtain ⟨hlen, hread⟩ := rxFrame_eq_some.1 hbuf
      refine ⟨buf, hlen.trans (rxIdx_succ hlt), fun a ha => (hread a (hlen ▸ ha)).symm, ?_⟩
      rw [exec_rxcByte, h, unitsG]
      cases decodeFrame buf s.expDs s.expFd (s.cfg.getLsbD 0) <;> rfl
  · exact ⟨execRxcByte_errors_ne (hi.synced hs) h not_streamError_truncatedFrame,
      fun p => execRxcByte_errors_ne (hi.synced hs) h (not_streamError_badSync p)⟩

/-- Settles O23: the deadline drops the partial frame and posts its one error. -/
theorem collectDeadline : Obligations.CollectDeadline := fun s => ⟨exec_rxcDeadline s, rfl⟩

/-! ### The transition table (43_collector.md R150) -/

/-- The rows of a byte in Scanning with no half match. -/
theorem matchMarker_rows_noHalf (b : Byte) {s : State} (hs : s.synState = .scanning) (hidx : s.rxIdx = 0)
    (hh : s.synHalf = false) :
    (matchMarker b s).synState = .scanning ∧ (matchMarker b s).synHalf = decide (b = Config.sync0) ∧
      (matchMarker b s).rxIdx = 0 ∧ (matchMarker b s).records = s.records ∧ (matchMarker b s).errors = s.errors := by
  by_cases hb : b = Config.sync0
  · subst hb
    simp [matchMarker_candidate hh, hs, hidx]
  · simp [matchMarker_noise hh hb, hs, hidx, hh, hb]

/-- The rows of a byte in Scanning with a half match. -/
theorem matchMarker_rows_half (b : Byte) {s : State} (hs : s.synState = .scanning) (hidx : s.rxIdx = 0)
    (hh : s.synHalf = true) :
    (b = Config.sync1 →
      (matchMarker b s).synState = .synced ∧ (matchMarker b s).synHalf = false ∧ (matchMarker b s).rxIdx = 2) ∧
    (b ≠ Config.sync1 →
      (matchMarker b s).synState = .scanning ∧ (matchMarker b s).synHalf = false ∧ (matchMarker b s).rxIdx = 0) ∧
    (matchMarker b s).records = s.records ∧ (matchMarker b s).errors = s.errors := by
  by_cases hb : b = Config.sync1
  · subst hb
    simp [matchMarker_match hh]
  · simp [matchMarker_failedPair hh hb, hs, hidx, hb]

/-- `done` of the table: the length byte as it stands once the byte is stored. -/
theorem frameDone_iff_getD {s : State} (b : Byte) (hlt : s.rxIdx.toNat < 261)
    (hcells : ∀ a < s.rxIdx.toNat, (memRead s.rxBuf a).isSome) :
    FrameDone (storeRx b s) ↔ 4 ≤ s.rxIdx.toNat + 1 ∧
      s.rxIdx.toNat + 1 = ((memRead (memWrite s.rxBuf s.rxIdx.toNat b) 3).getD 0).toNat + 6 := by
  rw [frameDone_iff b hlt, and_congr_right_iff]
  intro h4
  obtain ⟨n, hn⟩ := Option.isSome_iff_exists.1 (memRead_store_isSome b hcells (a := 3) (by omega))
  simp [hn]

/-- The rows of a byte in Synced. -/
theorem execRxcByte_rows (b : Byte) {s : State} (hs : s.synState = .synced) (hi : SyncedInv s) :
    ∃ t, execRxcByte b s = .next t ∧
      (¬ FrameDone (storeRx b s) → t.synState = .synced ∧ t.synHalf = false ∧ t.rxIdx.toNat = s.rxIdx.toNat + 1 ∧
        t.records = s.records ∧ t.errors = s.errors) ∧
      (FrameDone (storeRx b s) → t.synState = .scanning ∧ t.synHalf = false ∧ t.rxIdx = 0 ∧
        ((∃ r, t.records = s.records ++ [r] ∧ t.errors = s.errors) ∨
         (∃ e, t.records = s.records ∧ t.errors = s.errors ++ [e]))) := by
  have hlt := syncedInv_idx hi
  obtain ⟨hnot, h⟩ | ⟨hd, buf, -, h⟩ := execRxcByte_cases b hlt (syncedInv_cells hi)
  · obtain ⟨hhalf, -⟩ := hi
    exact ⟨_, h, fun _ => ⟨hs, hhalf, rxIdx_succ hlt, rfl, rfl⟩, fun hd => absurd hd hnot⟩
  · refine ⟨_, h, fun hnot => absurd hd hnot, fun _ => ?_⟩
    obtain ⟨hst, hhalf, hidx, -⟩ :=
      postResult_frame (decodeFrame buf s.expDs s.expFd (unitsG s)) (toScanning (storeRx b s))
    refine ⟨hst, hhalf, hidx, ?_⟩
    obtain hrec | ⟨e, -, herr⟩ :=
      postResult_outputs (decodeFrame buf s.expDs s.expFd (unitsG s)) (toScanning (storeRx b s))
    · exact .inl hrec
    · exact .inr ⟨e, herr⟩

theorem step_rxDeadline_scanning {s : State} {rest : List Stimulus} (hs : s.synState = .scanning)
    (hx : s.stimuli = .rxDeadline :: rest) :
    step s = .next (raiseError .syncTimeout (setHalf false { s with stimuli := rest })) :=
  step_of_decode_ok (i := .synDeadline) hx (by rw [hs]; rfl)

theorem step_rxDeadline_synced {s : State} {rest : List Stimulus} (hs : s.synState = .synced)
    (hx : s.stimuli = .rxDeadline :: rest) :
    step s = .next (raiseError .truncatedFrame (toScanning { s with stimuli := rest })) :=
  step_of_decode_ok (i := .rxcDeadline) hx (by rw [hs]; rfl)

theorem step_rearm {s : State} {rest : List Stimulus} {o : Operands} (hx : s.stimuli = .request 0x4 o :: rest) :
    step s = .next (toScanning { s with stimuli := rest }) :=
  step_of_decode_ok (i := .synRearm) hx rfl

/-- Settles O24: `SYN_STATE` and `SYN_HALF` pick the rows of a stimulus, and each row is a case of its operation. -/
theorem receivePathTransitions : Obligations.ReceivePathTransitions := by
  unfold Obligations.ReceivePathTransitions
  refine fun s rest hi => ⟨fun b hx => ?_, fun hx => ?_, fun o hx => ⟨_, step_rearm hx, rfl, rfl, rfl, rfl, rfl⟩⟩
  · cases hs : s.synState with
    | scanning =>
      have hidx : s.rxIdx = 0 := hi.scanning hs
      exact ⟨_, step_rxByte_scanning hs hx,
        fun _ hh => matchMarker_rows_noHalf (s := { s with stimuli := rest }) b hs hidx hh,
        fun _ hh => matchMarker_rows_half (s := { s with stimuli := rest }) b hs hidx hh, nofun⟩
    | synced =>
      have hsync := hi.synced hs
      obtain ⟨t, ht, hrows⟩ := execRxcByte_rows (s := { s with stimuli := rest }) b hs hsync
      rw [frameDone_iff_getD (s := { s with stimuli := rest }) b (syncedInv_idx hsync) (syncedInv_cells hsync)] at hrows
      exact ⟨t, (step_rxByte_synced hs hx).trans ht, nofun, nofun, fun _ => hrows⟩
  · cases hs : s.synState with
    | scanning => exact ⟨_, step_rxDeadline_scanning hs hx, hs, rfl, hi.scanning hs, rfl, fun _ => rfl, nofun⟩
    | synced => exact ⟨_, step_rxDeadline_synced hs hx, rfl, rfl, rfl, rfl, nofun, fun _ => rfl⟩

end Sys2Proof.Machine
end

section
/-! Checks 1 to 4 of the validator (44_decoder.md R156 to R163): which of checks 1 to 3 answers, and the field walk on fields
back to back and on the first one that fails behind them. -/

namespace Sys2Proof.Machine

/-! ### Checks 1 to 3 -/

theorem setOk_iff {ds expDs : Byte} : setOk ds expDs = true ↔ ds = expDs ∧ ds ∈ Config.dsEnum := by
  simp [setOk]

/-- The first of checks 1 to 3 that fails answers; a buffer that passes them goes on (44_decoder.md R156). -/
theorem decodeFrame_cases (buf : List Byte) (ds : Byte) (fds : BitVec 256) (g : Bool) :
    (¬ HoldsFrame buf ∧ decodeFrame buf ds fds g = .err .truncatedFrame) ∨
    (HoldsFrame buf ∧ ¬ TrailerMatches buf ∧ decodeFrame buf ds fds g =
      .err (.checksumMismatch (coveredSum buf (frameLength buf)) (trailer buf (frameLength buf)))) ∨
    (HoldsFrame buf ∧ TrailerMatches buf ∧ ¬ (byteAt buf 2 = ds ∧ byteAt buf 2 ∈ Config.dsEnum) ∧
      decodeFrame buf ds fds g = .err (.unexpectedDescriptorSet (byteAt buf 2))) ∨
    (PassesHeader buf ds ∧ decodeFrame buf ds fds g = decodePayload buf ds fds g) := by
  rw [← lengthOk_iff, ← cksCheck_iff, ← setOk_iff]
  unfold decodeFrame
  cases hlen : lengthOk buf with
  | false => exact .inl ⟨by simp, rfl⟩
  | true =>
    cases hcks : cksCheck buf (frameLength buf) with
    | false => exact .inr (.inl ⟨rfl, by simp, rfl⟩)
    | true =>
      cases hset : setOk (byteAt buf 2) ds with
      | false => exact .inr (.inr (.inl ⟨rfl, rfl, by simp, rfl⟩))
      | true =>
        obtain ⟨rfl, hlegal⟩ := setOk_iff.1 hset
        exact .inr (.inr (.inr ⟨⟨(lengthOk_iff buf).1 hlen, (cksCheck_iff buf).1 hcks, rfl, hlegal⟩, rfl⟩))

/-- The answers of checks 1 to 3 (44_decoder.md R157, R158, R160). -/
def headerError : DecodeResult → Bool
  | .err .truncatedFrame | .err (.checksumMismatch _ _) | .err (.unexpectedDescriptorSet _) => true
  | _ => false

theorem headerError_decodePayload (buf : List Byte) (ds : Byte) (fds : BitVec 256) (g : Bool) :
    headerError (decodePayload buf ds fds g) = false := by
  obtain ⟨e, hw, h⟩ | ⟨raw, -, ⟨-, h⟩ | ⟨-, ⟨fd, -, h⟩ | ⟨vs, -, h⟩⟩⟩ := decodePayload_cases buf ds fds g <;> rw [h]
  case inl =>
    obtain ⟨o, rfl⟩ | ⟨d, rfl⟩ := walkFields_error hw <;> rfl
  all_goals rfl

theorem decodePayload_ne {r : DecodeResult} (hr : headerError r = true) (buf : List Byte) (ds : Byte) (fds : BitVec 256)
    (g : Bool) : decodePayload buf ds fds g ≠ r := by
  rintro rfl
  rw [headerError_decodePayload] at hr
  cases hr

/-- An answer that is none of checks 1 to 3 comes from behind them. -/
theorem decodeFrame_eq_iff {buf : List Byte} {ds : Byte} {fds : BitVec 256} {g : Bool} {r : DecodeResult}
    (hr : headerError r = false) :
    decodeFrame buf ds fds g = r ↔ PassesHeader buf ds ∧ decodePayload buf ds fds g = r := by
  constructor
  · rintro rfl
    obtain ⟨-, h⟩ | ⟨-, -, h⟩ | ⟨-, -, -, h⟩ | ⟨hp, h⟩ := decodeFrame_cases buf ds fds g
    case inr.inr.inr => exact ⟨hp, h.symm⟩
    all_goals
      rw [h] at hr
      cases hr
  · rintro ⟨hp, rfl⟩
    exact decodeFrame_of_header fds g hp

/-- Settles O26: the length check comes first, and no later check answers `TruncatedFrame`. -/
theorem lengthCheck : Obligations.LengthCheck := by
  unfold Obligations.LengthCheck
  intro buf ds fds g
  have hfails : ¬ HoldsFrame buf ↔ buf.length < 6 ∨ buf.length < announced buf + 6 := by
    rw [HoldsFrame, not_and_or, Nat.not_le, Nat.not_le]
  rw [← hfails]
  constructor
  · intro h
    obtain ⟨hn, -⟩ | ⟨-, p, hp⟩ | hs := decodeFrame_error h
    · exact hn
    · cases hp
    · exact absurd hs not_streamError_truncatedFrame
  · intro hn
    obtain ⟨-, h⟩ | ⟨hh, -⟩ | ⟨hh, -⟩ | ⟨hp, -⟩ := decodeFrame_cases buf ds fds g
    · exact h
    · exact absurd hh hn
    · exact absurd hh hn
    · exact absurd hp.holds hn

/-- Settles O27: with the length right the checksum decides, and behind it no check answers `ChecksumMismatch`. -/
theorem checksumCheck : Obligations.ChecksumCheck := by
  unfold Obligations.ChecksumCheck
  intro buf ds fds g hh
  obtain ⟨hn, -⟩ | ⟨-, hn, h⟩ | ⟨-, ht, -, h⟩ | ⟨hp, h⟩ := decodeFrame_cases buf ds fds g
  · exact absurd hh hn
  · exact ⟨fun _ => h, fun ht => absurd ht hn⟩
  · exact ⟨fun hn => absurd ht hn, fun _ p q => by simp [h]⟩
  · exact ⟨fun hn => absurd hp.trailer hn, fun _ p q => h ▸ decodePayload_ne rfl buf ds fds g⟩

/-- Settles O28: with length and checksum right the set decides, and behind it no check answers
`UnexpectedDescriptorSet`. -/
theorem descriptorSetCheck : Obligations.DescriptorSetCheck := by
  unfold Obligations.DescriptorSetCheck
  intro buf ds fds g hh ht
  obtain ⟨hn, -⟩ | ⟨-, hn, -⟩ | ⟨-, -, hn, h⟩ | ⟨hp, h⟩ := decodeFrame_cases buf ds fds g
  · exact absurd hh hn
  · exact absurd ht hn
  · exact ⟨fun _ => h, fun hds hmem => absurd ⟨hds, hds ▸ hmem⟩ hn⟩
  · refine ⟨fun hbad => ?_, fun _ _ d => h ▸ decodePayload_ne rfl buf ds fds g⟩
    obtain hne | hnot := hbad
    · exact absurd hp.set hne
    · exact absurd (hp.set ▸ hp.legal) hnot

/-! ### Check 4, the field walk -/

theorem serializeFields_cons_append (fd : Byte) (d : List Byte) (fs : List (Byte × List Byte)) (tail : List Byte) :
    serializeFields ((fd, d) :: fs) ++ tail =
      BitVec.ofNat 8 (2 + d.length) :: fd :: (d ++ (serializeFields fs ++ tail)) := by
  simp [serializeFields]

/-- A field takes at least its two header bytes (30_encoding.md R83). -/
theorem length_le_serializeFields (fs : List (Byte × List Byte)) : fs.length ≤ (serializeFields fs).length := by
  induction fs with
  | nil => simp
  | cons f fs ih =>
    simp only [serializeFields, List.length_cons, List.length_append]
    omega

/-- A field that passes is taken off the front of the payload. -/
theorem walkFields_field {fds : BitVec 256} {fd : Byte} {d : List Byte} (hf : FieldPasses fds (fd, d)) (n off : Nat)
    (tail : List Byte) :
    walkFields fds (n + 1) off (BitVec.ofNat 8 (2 + d.length) :: fd :: (d ++ tail)) =
      (walkFields fds n (off + (2 + d.length)) tail).map ((fd, d) :: ·) := by
  obtain ⟨hlen, hexp⟩ := hf
  have hl : (BitVec.ofNat 8 (2 + d.length)).toNat = 2 + d.length := by
    rw [Nat.add_comm]
    exact lengthByte_toNat hlen
  have hfits : ¬ (2 + d.length < 2 ∨ (d ++ tail).length + 2 < 2 + d.length) := by
    rw [List.length_append]
    omega
  have hexp' : expects fds fd = true := hexp
  simp only [walkFields, hl, if_neg hfits, hexp', Nat.add_sub_cancel_left, List.drop_left, List.take_left]
  cases walkFields fds n (off + (2 + d.length)) tail <;> rfl

/-- Fields that pass are taken off one after another, and the walk goes on behind them. -/
theorem walkFields_append {fds : BitVec 256} {good : List (Byte × List Byte)} (hg : ∀ f ∈ good, FieldPasses fds f)
    (n off : Nat) (tail : List Byte) :
    walkFields fds (good.length + n) off (serializeFields good ++ tail) =
      (walkFields fds n (off + (serializeFields good).length) tail).map (good ++ ·) := by
  induction good generalizing off with
  | nil =>
    simp only [List.length_nil, Nat.zero_add, serializeFields, List.nil_append, Nat.add_zero]
    cases walkFields fds n off tail <;> rfl
  | cons f good ih =>
    obtain ⟨fd, d⟩ := f
    have hlen : 2 + d.length + (serializeFields good).length = (serializeFields ((fd, d) :: good)).length := by
      simp only [serializeFields, List.length_cons, List.length_append]
      omega
    rw [serializeFields_cons_append, List.length_cons, Nat.add_right_comm, walkFields_field (hg _ (by simp)),
      ih fun f hf => hg f (by simp [hf]), Nat.add_assoc, hlen]
    cases walkFields fds n _ tail <;> rfl

/-- A walk that succeeds has taken a field that passes off the front (44_decoder.md R162, R163). -/
theorem walkFields_cons_ok {fds : BitVec 256} {n off : Nat} {l fd : Byte} {rest : List Byte}
    {raw : List (Byte × List Byte)} (h : walkFields fds (n + 1) off (l :: fd :: rest) = .ok raw) :
    ∃ d tail off' raw', rest = d ++ tail ∧ l = BitVec.ofNat 8 (2 + d.length) ∧ FieldPasses fds (fd, d) ∧
      walkFields fds n off' tail = .ok raw' ∧ raw = (fd, d) :: raw' := by
  rw [walkFields] at h
  split at h
  case isTrue => cases h
  case isFalse hfits =>
    split at h
    case isTrue => cases h
    case isFalse hexp =>
      split at h
      case h_1 => cases h
      case h_2 raw' hw =>
        cases h
        have hl := l.isLt
        have hlen : (rest.take (l.toNat - 2)).length = l.toNat - 2 := by
          rw [List.length_take]
          omega
        refine ⟨_, _, _, raw', (List.take_append_drop _ rest).symm, ?_, ⟨?_, ?_⟩, hw, rfl⟩
        · rw [hlen, show 2 + (l.toNat - 2) = l.toNat by omega, BitVec.ofNat_toNat, BitVec.setWidth_eq]
        · simp only [hlen]
          omega
        · simpa using hexp

/-- What a walk that succeeds was given (44_decoder.md R161 to R163). -/
theorem walkFields_ok {fds : BitVec 256} {n off : Nat} {p : List Byte} {raw : List (Byte × List Byte)}
    (hn : p.length ≤ n) (h : walkFields fds n off p = .ok raw) :
    p = serializeFields raw ∧ ∀ f ∈ raw, FieldPasses fds f := by
  induction n generalizing off p raw with
  | zero =>
    cases h
    exact ⟨List.length_eq_zero_iff.1 (Nat.le_zero.1 hn), by simp⟩
  | succ n ih =>
    match p with
    | [] =>
      cases h
      exact ⟨rfl, by simp⟩
    | [_] => cases h
    | l :: fd :: rest =>
      obtain ⟨d, tail, off', raw', rfl, rfl, hf, hw, rfl⟩ := walkFields_cons_ok h
      obtain ⟨rfl, hraw⟩ := ih (by simp only [List.length_cons, List.length_append] at hn; omega) hw
      exact ⟨by simp [serializeFields], List.forall_mem_cons.2 ⟨hf, hraw⟩⟩

/-- Settles O29: what succeeds took one passing field off the front at each turn, and such fields back to back are taken off
until nothing is left. -/
theorem walkAcceptsExactlyFields : Obligations.WalkAcceptsExactlyFields := by
  unfold Obligations.WalkAcceptsExactlyFields
  intro fds n off p raw hn
  refine ⟨walkFields_ok hn, ?_⟩
  rintro ⟨rfl, hraw⟩
  obtain ⟨m, rfl⟩ := Nat.exists_eq_add_of_le ((length_le_serializeFields raw).trans hn)
  have h := walkFields_append hraw m off []
  have hend (k : Nat) : walkFields fds m k [] = .ok [] := by cases m <;> rfl
  rw [List.append_nil, hend] at h
  simpa [Except.map] using h

/-- The walk over the payload of a buffer that holds its frame. -/
theorem walk_payload_ok_iff {buf : List Byte} {fds : BitVec 256} {raw : List (Byte × List Byte)} (h : HoldsFrame buf) :
    walkFields fds (announced buf) 4 (payload buf) = .ok raw ↔
      payload buf = serializeFields raw ∧ ∀ f ∈ raw, FieldPasses fds f :=
  walkAcceptsExactlyFields fds _ 4 _ raw (payload_length h).le

theorem decodePayload_of_walk_error {buf : List Byte} {fds : BitVec 256} {e : ErrorEvent}
    (h : walkFields fds (announced buf) 4 (payload buf) = .error e) (ds : Byte) (g : Bool) :
    decodePayload buf ds fds g = .err e := by
  obtain ⟨e', hw, hr⟩ | ⟨raw, hw, -⟩ := decodePayload_cases buf ds fds g
  · rw [h] at hw
    cases hw
    exact hr
  · rw [h] at hw
    cases hw

/-- Behind fields that pass, an error of the walk is the frame's (60_exceptions.md R251). -/
theorem decodeFrame_of_tail_error {buf : List Byte} {ds : Byte} {fds : BitVec 256} {good : List (Byte × List Byte)}
    {tail : List Byte} {e : ErrorEvent} (g : Bool) (hp : PassesHeader buf ds)
    (hpay : payload buf = serializeFields good ++ tail) (hg : ∀ f ∈ good, FieldPasses fds f) (hne : tail ≠ [])
    (he : ∀ n, walkFields fds (n + 1) (4 + (serializeFields good).length) tail = .error e) :
    decodeFrame buf ds fds g = .err e := by
  obtain ⟨m, hm⟩ : ∃ m, announced buf = good.length + (m + 1) := by
    have hlen := payload_length hp.holds
    have htail := List.length_pos_iff.2 hne
    have hgood := length_le_serializeFields good
    rw [hpay, List.length_append] at hlen
    exact ⟨announced buf - good.length - 1, by omega⟩
  rw [decodeFrame_of_header fds g hp]
  refine decodePayload_of_walk_error ?_ ds g
  rw [hpay, hm, walkFields_append hg, he m]
  rfl

/-- Settles O30: the walk gets past the good fields, and the tail's first field decides. -/
theorem firstFailingFieldDecides : Obligations.FirstFailingFieldDecides := by
  unfold Obligations.FirstFailingFieldDecides
  intro buf ds fds g good tail hp hpay hg
  refine ⟨?_, ?_, ?_, ?_⟩
  · rintro x rfl
    exact decodeFrame_of_tail_error g hp hpay hg (by simp) fun _ => rfl
  · rintro l d rest rfl hbad
    exact decodeFrame_of_tail_error g hp hpay hg (by simp) fun _ => if_pos hbad
  · rintro l d rest rfl h2 hfits hexp
    refine decodeFrame_of_tail_error g hp hpay hg (by simp) fun _ => ?_
    rw [walkFields, if_neg (by omega), if_pos hexp]
  · rintro rfl
    rw [List.append_nil] at hpay
    have hw := (walk_payload_ok_iff hp.holds).2 ⟨hpay, hg⟩
    rw [decodeFrame_of_header fds g hp]
    obtain ⟨e, he, -⟩ | ⟨raw, -, ⟨-, h⟩ | ⟨-, ⟨fd, -, h⟩ | ⟨vs, -, h⟩⟩⟩ := decodePayload_cases buf ds fds g
    case inl =>
      rw [hw] at he
      cases he
    all_goals simp [h]

end Sys2Proof.Machine
end

section
/-! Check 5 and the interpretation (44_decoder.md R164 to R169), the frame of a built command read back (R173), the record tag
(R172) and direct mode (R156). -/

namespace Sys2Proof.Machine

/-! ### Check 5 and the interpretation -/

theorem decodePayload_eq_badSync_iff {buf : List Byte} {ds : Byte} {fds : BitVec 256} {g : Bool} {p : Byte × Byte} :
    decodePayload buf ds fds g = .err (.badSync p) ↔
      (∃ raw, walkFields fds (announced buf) 4 (payload buf) = .ok raw) ∧ syncOk buf = false ∧
        p = (byteAt buf 0, byteAt buf 1) := by
  obtain ⟨e, hw, h⟩ | ⟨raw, hw, ⟨hs, h⟩ | ⟨hs, ⟨fd, -, h⟩ | ⟨vs, -, h⟩⟩⟩ := decodePayload_cases buf ds fds g
  · obtain ⟨o, rfl⟩ | ⟨d, rfl⟩ := walkFields_error hw <;> simp [hw, h]
  · simp [hw, h, hs, eq_comm]
  · simp [h, hs]
  · simp [h, hs]

theorem decodePayload_eq_ok_iff {buf : List Byte} {ds : Byte} {fds : BitVec 256} {g : Bool} {r : Record} :
    decodePayload buf ds fds g = .ok r ↔ syncOk buf = true ∧ r.descriptorSet = ds ∧
      ∃ raw, walkFields fds (announced buf) 4 (payload buf) = .ok raw ∧ interpret ds g raw = .ok r.fields := by
  obtain ⟨ds', vs'⟩ := r
  obtain ⟨e, hw, h⟩ | ⟨raw, hw, ⟨hs, h⟩ | ⟨hs, ⟨fd, hi, h⟩ | ⟨vs, hi, h⟩⟩⟩ := decodePayload_cases buf ds fds g
  · simp [hw, h]
  · simp [h, hs]
  · simp [hw, h, hi]
  · simp [hw, h, hs, hi, eq_comm]

theorem decodePayload_eq_unsupportedField_iff {buf : List Byte} {ds : Byte} {fds : BitVec 256} {g : Bool} {fd : Byte} :
    decodePayload buf ds fds g = .err (.unsupportedField fd) ↔ syncOk buf = true ∧
      ∃ raw, walkFields fds (announced buf) 4 (payload buf) = .ok raw ∧ interpret ds g raw = .error fd := by
  obtain ⟨e, hw, h⟩ | ⟨raw, hw, ⟨hs, h⟩ | ⟨hs, ⟨fd', hi, h⟩ | ⟨vs, hi, h⟩⟩⟩ := decodePayload_cases buf ds fds g
  · obtain ⟨o, rfl⟩ | ⟨d, rfl⟩ := walkFields_error hw <;> simp [hw, h]
  · simp [h, hs]
  · simp [hw, h, hs, hi]
  · simp [hw, h, hi]

/-- Interpretation stops at the first field without a value. -/
theorem interpret_error_iff {ds : Byte} {g : Bool} {raw : List (Byte × List Byte)} {fd : Byte} :
    interpret ds g raw = .error fd ↔ ∃ good d rest, raw = good ++ (fd, d) :: rest ∧
      (∀ f ∈ good, (extract ds f.1 f.2 g).isSome) ∧ extract ds fd d g = none := by
  constructor
  · intro h
    induction raw with
    | nil => cases h
    | cons f raw ih =>
      obtain ⟨fd', d'⟩ := f
      rw [interpret] at h
      split at h
      case h_1 hnone =>
        cases h
        exact ⟨[], d', raw, rfl, by simp, hnone⟩
      case h_2 v hv =>
        split at h
        case h_1 hbad =>
          cases h
          obtain ⟨good, d, rest, rfl, hg, hnone⟩ := ih hbad
          exact ⟨(fd', d') :: good, d, rest, rfl, List.forall_mem_cons.2 ⟨by simp [hv], hg⟩, hnone⟩
        case h_2 => cases h
  · rintro ⟨good, d, rest, rfl, hg, hnone⟩
    exact interpret_error rest hg hnone

theorem syncOk_eq_false_iff {buf : List Byte} : syncOk buf = false ↔ byteAt buf 0 ≠ 0x75 ∨ byteAt buf 1 ≠ 0x65 := by
  rw [← Bool.not_eq_true, syncOk_iff, not_and_or]

/-- Settles O31: `BadSync` comes from behind checks 1 to 3, and there only once the walk has succeeded. -/
theorem syncBytesCheckedFifth : Obligations.SyncBytesCheckedFifth := by
  unfold Obligations.SyncBytesCheckedFifth
  intro buf ds fds g p
  rw [decodeFrame_eq_iff rfl, decodePayload_eq_badSync_iff, syncOk_eq_false_iff]
  refine and_congr_right fun hp => ?_
  simp only [walk_payload_ok_iff hp.holds]

/-- Settles O32: both answers come from behind the five checks, where the fields the walk took are interpreted. -/
theorem interpretationAfterChecks : Obligations.InterpretationAfterChecks := by
  unfold Obligations.InterpretationAfterChecks
  intro buf ds fds g
  constructor
  · intro r
    rw [decodeFrame_eq_iff rfl, decodePayload_eq_ok_iff, syncOk_iff]
    refine and_congr_right fun hp => ?_
    simp only [walk_payload_ok_iff hp.holds, interpret_ok_iff, and_assoc]
  · intro fd
    rw [decodeFrame_eq_iff rfl, decodePayload_eq_unsupportedField_iff, syncOk_iff, and_assoc]
    refine and_congr_right fun hp => and_congr_right fun _ => and_congr_right fun _ => ?_
    simp only [walk_payload_ok_iff hp.holds, interpret_error_iff]
    constructor
    · rintro ⟨_, ⟨hpay, hraw⟩, good, d, rest, rfl, hvalues⟩
      exact ⟨good, d, rest, hpay, hraw, hvalues⟩
    · rintro ⟨good, d, rest, hpay, hraw, hvalues⟩
      exact ⟨_, ⟨hpay, hraw⟩, good, d, rest, rfl, hvalues⟩

/-- Settles O33: an empty payload is no field at all. -/
theorem emptyFrameDecodes : Obligations.EmptyFrameDecodes := by
  unfold Obligations.EmptyFrameDecodes
  intro buf ds fds g hp hn h0 h1
  obtain ⟨hrecord, -⟩ := interpretationAfterChecks buf ds fds g
  have hpay : payload buf = [] := List.length_eq_zero_iff.1 ((payload_length hp.holds).trans hn)
  exact (hrecord _).2 ⟨hp, h0, h1, rfl, [], hpay, by simp, rfl⟩

/-! ### Bytes beyond the frame (R167) -/

/-- The frame in a buffer, without the bytes beyond it. -/
def frameOf (buf : List Byte) : List Byte := buf.take (announced buf + 6)

theorem byteAt_frameOf {buf : List Byte} {i : Nat} (h : i < announced buf + 6) :
    byteAt (frameOf buf) i = byteAt buf i := byteAt_take h buf

@[simp] theorem announced_frameOf (buf : List Byte) : announced (frameOf buf) = announced buf :=
  congrArg BitVec.toNat (byteAt_frameOf (by omega))

theorem slice_frameOf (buf : List Byte) : slice (frameOf buf) 4 (announced buf) = slice buf 4 (announced buf) := by
  rw [slice, frameOf, List.drop_take, List.take_take, Nat.min_eq_left (by omega), slice]

theorem syncOk_frameOf (buf : List Byte) : syncOk (frameOf buf) = syncOk buf := by
  rw [syncOk, byteAt_frameOf (by omega), byteAt_frameOf (by omega), syncOk]

theorem lengthOk_frameOf {buf : List Byte} (h : HoldsFrame buf) : lengthOk (frameOf buf) = true := by
  obtain ⟨-, hlen⟩ := h
  have hframe : (frameOf buf).length = announced buf + 6 := List.length_take_of_le hlen
  rw [lengthOk_iff, HoldsFrame, announced_frameOf, hframe]
  omega

theorem coveredSum_frameOf (buf : List Byte) :
    coveredSum (frameOf buf) (frameLength buf) = coveredSum buf (frameLength buf) := by
  have hle : frameLength buf - 2 ≤ announced buf + 6 := Nat.sub_le (frameLength buf) 2
  rw [coveredSum, frameOf, List.take_take, Nat.min_eq_left hle, coveredSum]

theorem trailer_frameOf (buf : List Byte) : trailer (frameOf buf) (frameLength buf) = trailer buf (frameLength buf) := by
  have hlast {k : Nat} (hk : 0 < k) : frameLength buf - k < announced buf + 6 := Nat.sub_lt (Nat.succ_pos _) hk
  rw [trailer, byteAt_frameOf (hlast (by decide)), byteAt_frameOf (hlast (by decide)), trailer]

theorem decodePayload_frameOf (buf : List Byte) (ds : Byte) (fds : BitVec 256) (g : Bool) :
    decodePayload (frameOf buf) ds fds g = decodePayload buf ds fds g := by
  have hslice : slice (frameOf buf) 4 (byteAt buf 3).toNat = slice buf 4 (byteAt buf 3).toNat := slice_frameOf buf
  simp only [decodePayload, byteAt_frameOf (show 0 < announced buf + 6 by omega),
    byteAt_frameOf (show 1 < announced buf + 6 by omega), byteAt_frameOf (show 3 < announced buf + 6 by omega), hslice,
    syncOk_frameOf]

/-- Settles O34: every part of the decoder reads below the frame's end. -/
theorem bytesBeyondFrameIgnored : Obligations.BytesBeyondFrameIgnored := by
  unfold Obligations.BytesBeyondFrameIgnored
  intro buf ds fds g h
  have hlength : frameLength (frameOf buf) = frameLength buf := congrArg (· + 6) (announced_frameOf buf)
  show decodeFrame buf ds fds g = decodeFrame (frameOf buf) ds fds g
  rw [decodeFrame, decodeFrame, (lengthOk_iff buf).2 h, lengthOk_frameOf h, cksCheck, cksCheck, hlength, coveredSum_frameOf,
    trailer_frameOf, byteAt_frameOf (by omega), decodePayload_frameOf]

/-! ### A built frame (R173) -/

/-- The two bytes put behind the covered bytes are their checksum (46_builder.md R196). -/
theorem trailerMatches_withChecksum {f : List Byte} (h : f.length = announced (withChecksum f) + 4) :
    TrailerMatches (withChecksum f) := by
  have hlast : announced (withChecksum f) + 5 = f.length + 1 := by omega
  rw [TrailerMatches, ← h, hlast, withChecksum, List.take_left]
  simp [byteAt]

theorem coveredBytes_length (ds : Byte) (fields : List (Byte × List Byte)) :
    (coveredBytes ds fields).length = payloadLength fields + 4 := by
  simp [coveredBytes, serializeFields_length]

section
variable {ds : Byte} {fields : List (Byte × List Byte)} {f : List Byte} (h : build ds fields = .ok f)
include h

theorem announced_built : announced f = payloadLength fields := by
  obtain ⟨-, -, hmax, rfl⟩ := build_ok h
  exact Nat.mod_eq_of_lt (Nat.lt_succ_of_le hmax)

theorem built_length : f.length = announced f + 6 := by
  rw [announced_built h]
  obtain ⟨-, -, -, rfl⟩ := build_ok h
  simp [withChecksum, coveredBytes_length]

/-- A built frame passes checks 1 to 3 for its own set. -/
theorem passesHeader_built : PassesHeader f ds := by
  have hlen := built_length h
  have hann := announced_built h
  obtain ⟨hds, -, -, rfl⟩ := build_ok h
  exact ⟨⟨by omega, by omega⟩, trailerMatches_withChecksum (by rw [hann, coveredBytes_length]), rfl, hds⟩

theorem syncOk_built : syncOk f = true := by
  obtain ⟨-, -, -, rfl⟩ := build_ok h
  rfl

theorem payload_built : payload f = serializeFields fields := by
  rw [payload, announced_built h, ← serializeFields_length]
  obtain ⟨-, -, -, rfl⟩ := build_ok h
  exact List.take_left

/-- With its descriptors expected, a built frame decodes to a record exactly when every field has a value. -/
theorem decodeFrame_built_eq_ok_iff {fds : BitVec 256} (hexp : ∀ p ∈ fields, expects fds p.1 = true) (g : Bool)
    (vs : List TypedField) :
    decodeFrame f ds fds g = .ok { descriptorSet := ds, fields := vs } ↔
      fields.map (fun p => extract ds p.1 p.2 g) = vs.map some := by
  have hp := passesHeader_built h
  obtain ⟨-, hlen, -, -⟩ := build_ok h
  have hw : walkFields fds (announced f) 4 (payload f) = .ok fields :=
    (walk_payload_ok_iff hp.holds).2 ⟨payload_built h, fun p hmem => ⟨hlen p hmem, hexp p hmem⟩⟩
  rw [decodeFrame_of_header fds g hp, decodePayload_eq_ok_iff, hw]
  simp [syncOk_built h, interpret_ok_iff]

end

/-- A field of a command set is RAW, whatever its descriptor and size (45_extractor.md R187). -/
theorem extract_commandSet {ds : Byte} (h : ds ∈ Config.commandSets) (fd : Byte) (d : List Byte) (g : Bool) :
    extract ds fd d g = some (.raw fd d) := by
  simp [extract, shapeOf_commandSet h, extractRaw]

/-- Settles O35: the frame passes the five checks and the walk takes back the fields it was built from. -/
theorem builtFrameRoundTrips : Obligations.BuiltFrameRoundTrips := by
  unfold Obligations.BuiltFrameRoundTrips
  intro ds fields f fds g h hexp
  constructor
  · intro hds
    simp [decodeFrame_built_eq_ok_iff h hexp, extract_commandSet hds, Function.comp_def]
  · rintro rfl vs
    exact decodeFrame_built_eq_ok_iff h hexp g vs

/-! ### The record tag and direct mode -/

/-- Settles O36: the tag depends on the number of fields and, up to two of them, on the kind of each. -/
theorem recordTagFollowsFields : Obligations.RecordTagFollowsFields := by
  unfold Obligations.RecordTagFollowsFields
  rintro ⟨ds, fields⟩
  match fields with
  | [] => simp [recordTag]
  | [v] => cases v <;> simp [recordTag]
  | [v, w] => cases v <;> cases w <;> simp [recordTag]
  | _ :: _ :: _ :: _ => simp [recordTag]

theorem exec_decDecode (buf : List Byte) (ds : Byte) (fds : BitVec 256) (s : State) :
    exec (.decDecode buf ds fds) s = .next (respond (.decoded (decodeFrame buf ds fds (unitsG s))) s) := rfl

/-- Settles O37: the operation only answers. -/
theorem directDecodeChangesNothing : Obligations.DirectDecodeChangesNothing := exec_decDecode

end Sys2Proof.Machine
end

section
/-! The field extractor (45_extractor.md): the reading of each shape, the three cases without a value, and the extraction forms
as steps of their own. -/

namespace Sys2Proof.Machine

/-! ### Big-endian values as concatenations -/

/-- A word that holds the number of `bs`, with one more byte below it, holds the number of `bs` and that byte
(30_encoding.md R86). -/
theorem append_toNat_eq_beNat {w : Nat} {x : BitVec w} {bs : List Byte} (h : x.toNat = beNat bs) (b : Byte) :
    (x ++ b).toNat = beNat (bs ++ [b]) := by
  rw [BitVec.toNat_append, ← Nat.shiftLeft_add_eq_or_of_lt b.isLt, Nat.shiftLeft_eq, h, beNat, beNat, List.foldl_append]
  rfl

theorem toNat_eq_beNat_singleton (b : Byte) : b.toNat = beNat [b] := by simp [beNat]

theorem be16_eq_append (b0 b1 : Byte) : be16 [b0, b1] = b0 ++ b1 := by
  apply BitVec.eq_of_toNat_eq
  rw [be16_toNat rfl]
  exact (append_toNat_eq_beNat (toNat_eq_beNat_singleton b0) b1).symm

theorem be32_eq_append (b0 b1 b2 b3 : Byte) : be32 [b0, b1, b2, b3] = b0 ++ b1 ++ b2 ++ b3 := by
  apply BitVec.eq_of_toNat_eq
  rw [be32_toNat rfl]
  have h2 : (b0 ++ b1).toNat = beNat [b0, b1] := append_toNat_eq_beNat (toNat_eq_beNat_singleton b0) b1
  exact (append_toNat_eq_beNat (append_toNat_eq_beNat h2 b2) b3).symm

theorem be64_eq_append (b0 b1 b2 b3 b4 b5 b6 b7 : Byte) :
    be64 [b0, b1, b2, b3, b4, b5, b6, b7] = b0 ++ b1 ++ b2 ++ b3 ++ b4 ++ b5 ++ b6 ++ b7 := by
  apply BitVec.eq_of_toNat_eq
  rw [be64_toNat rfl]
  have h4 : (be32 [b0, b1, b2, b3]).toNat = beNat [b0, b1, b2, b3] := be32_toNat rfl
  rw [be32_eq_append] at h4
  have h6 : (b0 ++ b1 ++ b2 ++ b3 ++ b4 ++ b5).toNat = beNat [b0, b1, b2, b3, b4, b5] :=
    append_toNat_eq_beNat (append_toNat_eq_beNat h4 b4) b5
  exact (append_toNat_eq_beNat (append_toNat_eq_beNat h6 b6) b7).symm

/-! ### What each shape reads -/

theorem extract_accel (d : List Byte) (g : Bool) : extract 0x80 0x04 d g = extractAccel d g := rfl

theorem extract_gpsTime (d : List Byte) (g : Bool) : extract 0x80 0xD3 d g = extractGpsTime d := rfl

theorem extract_noShape {ds fd : Byte} (h : shapeOf ds fd = none) (d : List Byte) (g : Bool) : extract ds fd d g = none := by
  rw [extract, h]

theorem extractAccel_eq_none_iff {d : List Byte} {g : Bool} : extractAccel d g = none ↔ d.length ≠ 12 := by
  simp [extractAccel]

theorem extractGpsTime_eq_none_iff {d : List Byte} : extractGpsTime d = none ↔ d.length < 10 := by
  simp [extractGpsTime]

/-- Settles O38: the three slices of twelve bytes are the three groups of four. -/
theorem accelReading : Obligations.AccelReading := by
  unfold Obligations.AccelReading
  intro g d
  refine ⟨extractAccel_eq_none_iff.2, fun b0 b1 b2 b3 b4 b5 b6 b7 b8 b9 b10 b11 => ?_⟩
  rw [← be32_eq_append, ← be32_eq_append, ← be32_eq_append]
  rfl

/-- Settles O39: the two slices lie in the first ten bytes, whatever follows them. -/
theorem gpsTimeReading : Obligations.GpsTimeReading := by
  unfold Obligations.GpsTimeReading
  intro g d
  refine ⟨extractGpsTime_eq_none_iff.2, fun b0 b1 b2 b3 b4 b5 b6 b7 b8 b9 => ?_⟩
  rw [← be64_eq_append, ← be16_eq_append, extract_gpsTime, extractGpsTime, if_neg (by simp)]
  rfl

/-! ### The three cases without a value -/

theorem mem_dsEnum_iff {ds : Byte} : ds ∈ Config.dsEnum ↔ ds ∈ Config.commandSets ∨ ds = 0x80 := by
  rw [show Config.dsEnum = Config.commandSets ++ [0x80] from rfl, List.mem_append, List.mem_singleton]

theorem sens_not_mem_commandSets : (0x80 : Byte) ∉ Config.commandSets := by decide

/-- In set 0x80 the descriptor and then the size decide (45_extractor.md R188). -/
theorem extract_sens_eq_none_iff {fd : Byte} {d : List Byte} {g : Bool} : extract 0x80 fd d g = none ↔
    (fd ≠ 0x04 ∧ fd ≠ 0xD3) ∨ (fd = 0x04 ∧ d.length ≠ 12) ∨ (fd = 0xD3 ∧ d.length < 10) := by
  by_cases ha : fd = 0x04
  · subst ha
    rw [extract_accel, extractAccel_eq_none_iff]
    simp
  by_cases hg : fd = 0xD3
  · subst hg
    rw [extract_gpsTime, extractGpsTime_eq_none_iff]
    simp
  · exact iff_of_true (extract_noShape (shapeOf_sens_none ha hg) d g) (.inl ⟨ha, hg⟩)

/-- Settles O40: a legal set is a command set, whose fields always have a value, or set 0x80. -/
theorem unsupportedInThreeCases : Obligations.UnsupportedInThreeCases := by
  unfold Obligations.UnsupportedInThreeCases
  intro ds fd d g hds
  refine ⟨?_, fun hcmd => extract_commandSet hcmd fd d g⟩
  obtain hcmd | rfl := mem_dsEnum_iff.1 hds
  · have hne : ds ≠ 0x80 := fun h => sens_not_mem_commandSets (h ▸ hcmd)
    simp only [extract_commandSet hcmd, hne, false_and, or_self, reduceCtorEq]
  · simpa only [true_and] using extract_sens_eq_none_iff

/-! ### The extraction forms as steps -/

theorem exec_extAccel (d : List Byte) (s : State) : exec (.extAccel d) s =
    .next (respond (.extracted (extractResult 0x04 (extract 0x80 0x04 d (unitsG s)))) s) := rfl

theorem exec_extGpstime (d : List Byte) (s : State) : exec (.extGpstime d) s =
    .next (respond (.extracted (extractResult 0xD3 (extract 0x80 0xD3 d (unitsG s)))) s) := rfl

theorem exec_extRaw (ds fd : Byte) (d : List Byte) (s : State) :
    exec (.extRaw ds fd d) s = .next (respond (.extracted (.ok (.raw fd d))) s) := rfl

/-- Data as long as announced splits into the field's own bytes and those after them (30_encoding.md R84). -/
theorem exists_announced_append {fl : Byte} {data : List Byte} (h : dataCount fl ≤ data.length) :
    ∃ d extra, data = d ++ extra ∧ d.length = dataCount fl :=
  ⟨data.take (dataCount fl), data.drop (dataCount fl), (List.take_append_drop _ _).symm, List.length_take_of_le h⟩

/-- Settles O41: a form answers what `extract` gives for its field; a field whose key selects no form goes by the reason the
decoder rejects it for. -/
theorem extractionSteps : Obligations.ExtractionSteps := by
  unfold Obligations.ExtractionSteps
  intro data ds fl fd s rest
  refine ⟨exec_extAccel data s, exec_extGpstime data s, exec_extRaw ds fd data s, fun hs =>
    ⟨fun hcut => ?cutShort, fun hlen => ?noShape, fun hlen hds hfl => ?reservedLength, fun hlen hds => ?unknownSet⟩⟩
  case cutShort => exact step_of_decode_error hs (decodeField_cutShort hcut ds fd)
  case noShape =>
    rintro rfl ha hg
    obtain ⟨d, extra, rfl, hd⟩ := exists_announced_append hlen
    exact step_of_decode_error hs (decodeField_noShape hd extra (shapeOf_sens_none ha hg) (by decide))
  case reservedLength =>
    obtain ⟨d, extra, rfl, hd⟩ := exists_announced_append hlen
    exact step_of_decode_error hs (decodeField_reservedLength hd extra (shapeOf_commandSet hds fd) hfl)
  case unknownSet =>
    obtain ⟨d, extra, rfl, hd⟩ := exists_announced_append hlen
    exact step_of_decode_error hs (decodeField_unknownSet hd extra hds)

end Sys2Proof.Machine
end

section
/-! The command frame builder (46_builder.md): the result of `build` for each kind of arguments, what `BLD.BUILD` does with it,
and the layout of a built frame. -/

namespace Sys2Proof.Machine

/-! ### The spec's own writing of the length and the layout (R196, R197) -/

theorem serializeFields_eq_flatMap (fields : List (Byte × List Byte)) :
    serializeFields fields = fields.flatMap fun p => BitVec.ofNat 8 (2 + p.2.length) :: p.1 :: p.2 := by
  induction fields with
  | nil => rfl
  | cons p rest ih => rw [serializeFields, ih, List.flatMap_cons]

theorem coveredBytes_eq (ds : Byte) (fields : List (Byte × List Byte)) :
    coveredBytes ds fields = [0x75, 0x65, ds, BitVec.ofNat 8 (fields.map fun p => 2 + p.2.length).sum] ++
      fields.flatMap fun p => BitVec.ofNat 8 (2 + p.2.length) :: p.1 :: p.2 := by
  rw [coveredBytes, payloadLength_eq_sum, serializeFields_eq_flatMap, Config.sync0, Config.sync1]

/-! ### The result of `build`, test by test (R199) -/

/-- The index reported is that of the first field too long: it counts the fields that fit before it. -/
theorem firstTooLong_append {front : List (Byte × List Byte)} {p : Byte × List Byte}
    (hfront : ∀ q ∈ front, q.2.length ≤ Config.maxFieldData) (hp : Config.maxFieldData < p.2.length)
    (back : List (Byte × List Byte)) (i : Nat) : firstTooLong i (front ++ p :: back) = some (i + front.length) := by
  induction front generalizing i with
  | nil => exact if_pos hp
  | cons q front ih =>
    obtain ⟨hq, hrest⟩ := List.forall_mem_cons.1 hfront
    rw [List.cons_append, firstTooLong, if_neg (Nat.not_lt.2 hq), ih hrest, List.length_cons, Nat.add_right_comm, Nat.add_assoc]

section
variable {ds : Byte} {fields : List (Byte × List Byte)}

theorem build_of_badSet (hds : ds ∉ Config.dsEnum) (fields : List (Byte × List Byte)) :
    build ds fields = .refused (.badDescriptorSet ds) := if_pos hds

theorem build_of_tooLong (hds : ds ∈ Config.dsEnum) {i : Nat} (hi : firstTooLong 0 fields = some i) :
    build ds fields = .refused (.fieldTooLong i) := by
  rw [build, if_neg (not_not_intro hds), hi]

theorem build_of_payloadTooLong (hds : ds ∈ Config.dsEnum) (hfit : ∀ p ∈ fields, p.2.length ≤ Config.maxFieldData)
    (hlt : Config.maxPayload < payloadLength fields) :
    build ds fields = .refused (.payloadTooLong (payloadLength fields)) := by
  rw [build, if_neg (not_not_intro hds), firstTooLong_eq_none.2 hfit]
  exact if_pos hlt

theorem build_of_fits (hds : ds ∈ Config.dsEnum) (hfit : ∀ p ∈ fields, p.2.length ≤ Config.maxFieldData)
    (hle : payloadLength fields ≤ Config.maxPayload) :
    build ds fields = .ok (withChecksum (coveredBytes ds fields)) := by
  rw [build, if_neg (not_not_intro hds), firstTooLong_eq_none.2 hfit]
  exact if_neg (Nat.not_lt.2 hle)

/-! ### What is done with the result (R196, R201) -/

theorem exec_bldBuild (ds : Byte) (fields : List (Byte × List Byte)) (s : State) :
    exec (.bldBuild ds fields) s = .next (runBuild ds fields s) := rfl

/-- A refusal changes nothing but the error output. -/
theorem runBuild_of_refused {e : ErrorEvent} (h : build ds fields = .refused e) (s : State) :
    runBuild ds fields s = raiseError e s := by
  rw [runBuild, h]

/-- A built frame goes out whole. -/
theorem emits_runBuild {f : List Byte} (h : build ds fields = .ok f) (s : State) :
    Emits f s (.next (runBuild ds fields s)) := by
  rw [runBuild, h]
  exact ⟨_, _, _, rfl⟩

end

/-- Settles O43: each test of `build` in turn. -/
theorem buildEmitsOrRefuses : Obligations.BuildEmitsOrRefuses := by
  unfold Obligations.BuildEmitsOrRefuses
  intro ds fields s st o n covered
  have hn : payloadLength fields = n := payloadLength_eq_sum fields
  have hcovered : coveredBytes ds fields = covered := coveredBytes_eq ds fields
  rw [exec_bldBuild]
  refine ⟨fun hds hfit hle => ?emits, fun hds => ?badSet, fun hds front p back hsplit hfront hp => ?fieldTooLong,
    fun hds hfit hlt => ?payloadTooLong, rfl⟩
  case emits =>
    rw [← hcovered]
    exact emits_runBuild (build_of_fits hds hfit (hn.trans_le hle)) s
  case badSet => exact congrArg _ (runBuild_of_refused (build_of_badSet hds fields) s)
  case fieldTooLong =>
    have hfirst : firstTooLong 0 fields = some front.length := by
      rw [hsplit, firstTooLong_append hfront hp, Nat.zero_add]
    exact congrArg _ (runBuild_of_refused (build_of_tooLong hds hfirst) s)
  case payloadTooLong =>
    rw [← hn] at hlt ⊢
    exact congrArg _ (runBuild_of_refused (build_of_payloadTooLong hds hfit hlt) s)

/-- Settles O44: a built frame passes the checks of the decoder's header and carries the fields as its payload. -/
theorem builtFrameWellFormed : Obligations.BuiltFrameWellFormed := by
  unfold Obligations.BuiltFrameWellFormed
  intro ds fields f h
  have hlen := built_length h
  have hmax : announced f < 256 := (byteAt f 3).isLt
  have hheader := passesHeader_built h
  obtain ⟨h0, h1⟩ := (syncOk_iff f).1 (syncOk_built h)
  exact ⟨(announced_built h).trans (payloadLength_eq_sum fields), hlen, by omega, by omega, h0, h1, hheader.set,
    hheader.trailer, payload_built h⟩

end Sys2Proof.Machine
end

section
/-! The command templates (47_command_templates.md): each is one build of one field, whose frame is spelled out, and the table's
parameters leave room for the operands of fixed width. -/

namespace Sys2Proof.Machine

/-! ### What each template runs (R212 to R219) -/

theorem exec_cmdIdle (s : State) : exec .cmdIdle s = .next (runTemplate (Config.template .idle) [] s) := rfl

theorem exec_cmdResume (s : State) : exec .cmdResume s = .next (runTemplate (Config.template .resume) [] s) := rfl

theorem exec_cmdPpsSource (p : List Byte) (s : State) :
    exec (.cmdPpsSource p) s = .next (runTemplate (Config.template .ppsSource) p s) := rfl

theorem exec_cmdPpsPulse (p : List Byte) (s : State) :
    exec (.cmdPpsPulse p) s = .next (runTemplate (Config.template .ppsPulse) p s) := rfl

theorem exec_cmdGnssOffset (x y z : BitVec 32) (s : State) : exec (.cmdGnssOffset x y z) s =
    .next (runTemplate (Config.template .gnssOffset) (bytesBe32 x ++ bytesBe32 y ++ bytesBe32 z) s) := rfl

theorem exec_cmdMsgFormat (tds tfd : Byte) (dec : Nat) (s : State) : exec (.cmdMsgFormat tds tfd dec) s =
    .next (runTemplate (Config.template .msgFormat) (tds :: tfd :: bytesBe dec Config.decimBytes) s) := rfl

theorem exec_cmdStreamEn (p : List Byte) (s : State) :
    exec (.cmdStreamEn p) s = .next (runTemplate (Config.template .streamEn) p s) := rfl

theorem exec_cmdPoll (p : List Byte) (s : State) :
    exec (.cmdPoll p) s = .next (runTemplate (Config.template .poll) p s) := rfl

/-- `CMD.T operands = BLD.BUILD T.ds, [(T.fd, T.pre ++ operand_bytes)]` (R211). -/
theorem next_runTemplate_eq_exec_bldBuild (t : Config.Template) (d : List Byte) (s : State) :
    .next (runTemplate t d s) = exec (.bldBuild (setByte t.ds) [(t.fd, t.pre ++ d)]) s := rfl

/-! ### The table's parameters (R211) -/

/-- The operands of fixed width fit one field by themselves, the decimation because `P_DECIM_BYTES` is bounded. -/
theorem fixedOperandBytes_le (t : TemplateName) : Config.fixedOperandBytes t ≤ Config.maxFieldData := by
  cases t with
  | msgFormat => exact Nat.add_le_add_left (Nat.min_le_right _ 251) 2
  | idle | resume | ppsSource | ppsPulse | gnssOffset | streamEn | poll => decide

/-- The table's prefix is cut to the room the operands of fixed width leave. -/
theorem template_pre_add_fixedOperandBytes_le (t : TemplateName) :
    (Config.template t).pre.length + Config.fixedOperandBytes t ≤ Config.maxFieldData :=
  Nat.add_le_of_le_sub (fixedOperandBytes_le t) (List.length_take_le _ _)

theorem template_fits_of_fixed {t : TemplateName} {d : List Byte} (hd : d.length = Config.fixedOperandBytes t) :
    (Config.template t).pre.length + d.length ≤ Config.maxFieldData :=
  hd ▸ template_pre_add_fixedOperandBytes_le t

/-! ### The frame of one field, or the refusal of field 0 (R211) -/

theorem withChecksum_coveredBytes_oneField (ds fd : Byte) (data : List Byte) :
    withChecksum (coveredBytes ds [(fd, data)]) = oneFieldFrame ds fd data := by
  simp [withChecksum, coveredBytes_eq, oneFieldFrame]

section
variable {t : Config.Template} {d : List Byte}

/-- Prefix and operands of at most 253 bytes make a payload of at most 255, so both bounds of the builder hold. -/
theorem emits_runTemplate (hfit : t.pre.length + d.length ≤ Config.maxFieldData) (s : State) :
    Emits (oneFieldFrame (setByte t.ds) t.fd (t.pre ++ d)) s (.next (runTemplate t d s)) := by
  rw [← List.length_append] at hfit
  rw [← withChecksum_coveredBytes_oneField]
  have hpayload : payloadLength [(t.fd, t.pre ++ d)] ≤ Config.maxPayload := Nat.add_le_add_left hfit 2
  exact emits_runBuild (build_of_fits (setByte_legal t.ds) (List.forall_mem_singleton.2 hfit) hpayload) s

theorem runTemplate_of_tooLong (hlong : ¬ t.pre.length + d.length ≤ Config.maxFieldData) (s : State) :
    runTemplate t d s = raiseError (.fieldTooLong 0) s := by
  rw [← List.length_append, Nat.not_le] at hlong
  have hfirst : firstTooLong 0 [(t.fd, t.pre ++ d)] = some 0 := if_pos hlong
  exact runBuild_of_refused (build_of_tooLong (setByte_legal t.ds) hfirst) s

end

/-- Settles O45: the expansion is each template's definition, and the table's values are cut to legal ones. -/
theorem templatesExpandToBuild : Obligations.TemplatesExpandToBuild := by
  unfold Obligations.TemplatesExpandToBuild
  intro p x y z tds tfd dec s as
  simp only [exec_cmdIdle, exec_cmdResume, exec_cmdPpsSource, exec_cmdPpsPulse, exec_cmdGnssOffset, exec_cmdMsgFormat,
    exec_cmdStreamEn, exec_cmdPoll, next_runTemplate_eq_exec_bldBuild, as, true_and]
  exact ⟨fun t => ⟨setByte_legal _, template_pre_add_fixedOperandBytes_le t⟩, rfl, rfl⟩

/-- Settles O46: operands of fixed width always fit beside the prefix. -/
theorem fixedTemplatesSendFrame : Obligations.FixedTemplatesSendFrame := by
  unfold Obligations.FixedTemplatesSendFrame
  intro x y z tds tfd dec s sent
  rw [exec_cmdIdle, exec_cmdResume, exec_cmdGnssOffset, exec_cmdMsgFormat]
  have hmsg : (tds :: tfd :: bytesBe dec Config.decimBytes).length = Config.fixedOperandBytes .msgFormat := by
    rw [List.length_cons, List.length_cons, bytesBe_length, Config.fixedOperandBytes]
    omega
  exact ⟨emits_runTemplate (template_fits_of_fixed rfl) s, emits_runTemplate (template_fits_of_fixed rfl) s,
    emits_runTemplate (template_fits_of_fixed rfl) s, emits_runTemplate (template_fits_of_fixed hmsg) s⟩

/-- Settles O47: a payload that fits beside the prefix goes out, a longer one makes field 0 too long. -/
theorem payloadTemplatesSendFrame : Obligations.PayloadTemplatesSendFrame := by
  unfold Obligations.PayloadTemplatesSendFrame
  intro p s sent fits tooLong
  have hsent (t : TemplateName) (hfit : fits t) : Emits (sent t) s (.next (runTemplate (Config.template t) p s)) :=
    emits_runTemplate hfit s
  have hrefused (t : TemplateName) (hlong : ¬ fits t) : .next (runTemplate (Config.template t) p s) = tooLong :=
    congrArg _ (runTemplate_of_tooLong hlong s)
  rw [exec_cmdPpsSource, exec_cmdPpsPulse, exec_cmdStreamEn, exec_cmdPoll]
  exact ⟨hsent _, hsent _, hsent _, hsent _, hrefused _, hrefused _, hrefused _, hrefused _⟩

end Sys2Proof.Machine
end

section
/-! The outputs (10_state.md R35 c, d): what a step posts on the record and error outputs, and which operation posts which error
(60_exceptions.md R241, R247, R249). -/

namespace Sys2Proof.Machine

/-- One stimulus posts nothing, one record, or one error, and the error is among those allowed (60_exceptions.md R249). -/
inductive Posts (allowed : ErrorEvent → Prop) (s t : State) : Prop
  | nothing (hrec : t.records = s.records) (herr : t.errors = s.errors)
  | record (r : Record) (hrec : t.records = s.records ++ [r]) (herr : t.errors = s.errors)
  | error (e : ErrorEvent) (hrec : t.records = s.records) (herr : t.errors = s.errors ++ [e]) (hallowed : allowed e)

/-- Which operation may post an error of which code (60_exceptions.md R241). -/
def RaisedBy (i : Instr) (e : ErrorEvent) : Prop :=
  (i = .synDeadline ∧ e.code = 1) ∨ (i = .rxcDeadline ∧ e.code = 5) ∨
  ((∃ b, i = .rxcByte b) ∧ e.code ∈ [2, 3, 4, 5, 6, 8, 9]) ∨ (sendsFrame i = true ∧ e.code ∈ [10, 11, 12])

section
variable {p q : ErrorEvent → Prop} {s t : State}

theorem Posts.imp (h : Posts p s t) (hpq : ∀ e, p e → q e) : Posts q s t := by
  cases h with
  | nothing hrec herr => exact .nothing hrec herr
  | record r hrec herr => exact .record r hrec herr
  | error e hrec herr he => exact .error e hrec herr (hpq e he)

theorem Posts.allowed_of_errors_eq {e : ErrorEvent} (h : Posts p s t) (he : t.errors = s.errors ++ [e]) : p e := by
  cases h with
  | nothing _ herr => simp [herr] at he
  | record _ _ herr => simp [herr] at he
  | error e' _ herr hp =>
    obtain rfl : e' = e := by simpa [herr] using he
    exact hp

theorem Posts.mem_errors {e : ErrorEvent} (h : Posts p s t) (hmem : e ∈ t.errors) : e ∈ s.errors ∨ p e := by
  cases h with
  | nothing _ herr => exact .inl (herr ▸ hmem)
  | record _ _ herr => exact .inl (herr ▸ hmem)
  | error e' _ herr hp =>
    obtain hold | rfl : e ∈ s.errors ∨ e = e' := by simpa [herr] using hmem
    · exact .inl hold
    · exact .inr hp

end

/-! ### The errors of the two units that compute theirs -/

/-- Each check of `decode` and the interpretation has its own code (44_decoder.md R156). -/
theorem decodeFrame_error_code {buf : List Byte} {ds : Byte} {fds : BitVec 256} {g : Bool} {e : ErrorEvent}
    (h : decodeFrame buf ds fds g = .err e) : e.code ∈ [2, 3, 4, 5, 6, 8, 9] := by
  obtain ⟨-, rfl⟩ | ⟨-, p, rfl⟩ | ⟨_, _, rfl⟩ | ⟨_, rfl⟩ | ⟨_, rfl⟩ | ⟨_, rfl⟩ | ⟨_, rfl⟩ := decodeFrame_error h <;>
    simp [ErrorEvent.code]

/-- The three refusals of `build` (46_builder.md R199). -/
theorem build_refused_code {ds : Byte} {fields : List (Byte × List Byte)} {e : ErrorEvent}
    (h : build ds fields = .refused e) : e.code ∈ [10, 11, 12] := by
  obtain ⟨-, hb⟩ | ⟨-, i, -, hb⟩ | ⟨-, -, -, hb⟩ | ⟨-, -, -, hb⟩ := build_cases ds fields <;>
    rw [hb] at h <;> cases h <;> simp [ErrorEvent.code]

/-! ### What each operation posts -/

theorem runBuild_posts (ds : Byte) (fields : List (Byte × List Byte)) (s : State) :
    Posts (·.code ∈ [10, 11, 12]) s (runBuild ds fields s) := by
  obtain ⟨f, -, h⟩ | ⟨e, hb, h⟩ := runBuild_cases ds fields s <;> rw [h]
  · exact .nothing rfl rfl
  · exact .error e rfl rfl (build_refused_code hb)

/-- A byte that completes a frame posts the frame's one output, any other byte nothing (43_collector.md R142, R146). -/
theorem execRxcByte_posts_code {b : Byte} {s t : State} (h : execRxcByte b s = .next t) :
    Posts (·.code ∈ [2, 3, 4, 5, 6, 8, 9]) s t := by
  obtain ⟨-, ⟨rfl, -⟩ | ⟨-, buf, -, rfl⟩⟩ := execRxcByte_next h
  · exact .nothing rfl rfl
  · obtain ⟨r, hrec, herr⟩ | ⟨e, hdec, hrec, herr⟩ :=
      postResult_outputs (decodeFrame buf s.expDs s.expFd (unitsG s)) (toScanning (storeRx b s))
    · exact .record r hrec herr
    · exact .error e hrec herr (decodeFrame_error_code hdec)

theorem matchMarker_posts_nothing (b : Byte) (s : State) :
    (matchMarker b s).records = s.records ∧ (matchMarker b s).errors = s.errors := by
  obtain ⟨-, -, h⟩ | ⟨-, -, h⟩ | ⟨-, -, h⟩ | ⟨-, -, h⟩ := matchMarker_cases b s <;> rw [h] <;> exact ⟨rfl, rfl⟩

theorem writeReg_posts_nothing (reg : Reg) (v : BitVec 256) (s : State) :
    (writeReg reg v s).records = s.records ∧ (writeReg reg v s).errors = s.errors := by
  cases reg <;> exact ⟨rfl, rfl⟩

theorem exec_posts {i : Instr} {s t : State} (h : exec i s = .next t) : Posts (RaisedBy i) s t := by
  cases i with
  | synDeadline => cases h; exact .error _ rfl rfl (.inl ⟨rfl, rfl⟩)
  | rxcDeadline => cases h; exact .error _ rfl rfl (.inr (.inl ⟨rfl, rfl⟩))
  | rxcByte b => exact (execRxcByte_posts_code h).imp fun _ hc => .inr (.inr (.inl ⟨⟨b, rfl⟩, hc⟩))
  | bldBuild _ _ | cmdIdle | cmdResume | cmdPpsSource _ | cmdPpsPulse _ | cmdGnssOffset _ _ _ | cmdMsgFormat _ _ _
  | cmdStreamEn _ | cmdPoll _ =>
    cases h
    exact (runBuild_posts _ _ s).imp fun _ hc => .inr (.inr (.inr ⟨rfl, hc⟩))
  | synByte b =>
    cases h
    obtain ⟨hrec, herr⟩ := matchMarker_posts_nothing b s
    exact .nothing hrec herr
  | cfgWr reg v =>
    cases h
    obtain ⟨hrec, herr⟩ := writeReg_posts_nothing reg v s
    exact .nothing hrec herr
  | _ => cases h; exact .nothing rfl rfl

/-- The `reset` event and a field with no shape post nothing (70_reset_and_hazards.md R280; log entry 7). -/
theorem offTable_posts_nothing {r : Reject} {s t : State} (h : offTable r s = .next t) :
    t.records = s.records ∧ t.errors = s.errors := by
  obtain ⟨-, rfl⟩ | ⟨fd, -, rfl⟩ := offTable_next h <;> exact ⟨rfl, rfl⟩

/-- Consuming the stimulus touches no output, so a step posts what its operation posts. -/
theorem step_posts {s t : State} (h : step s = .next t) : Posts (fun e => ∃ i, RaisedBy i e) s t := by
  obtain ⟨x, rest, -, ⟨i, -, he⟩ | ⟨r, -, ho⟩⟩ := step_next h
  · cases exec_posts he with
    | nothing hrec herr => exact .nothing hrec herr
    | record r hrec herr => exact .record r hrec herr
    | error e hrec herr hi => exact .error e hrec herr ⟨i, hi⟩
  · obtain ⟨hrec, herr⟩ := offTable_posts_nothing ho
    exact .nothing hrec herr

/-- Settles O55: an operation posts at most one output, and what selects no operation posts none. -/
theorem oneOutputPerStimulus : Obligations.OneOutputPerStimulus := by
  unfold Obligations.OneOutputPerStimulus
  intro s t h
  cases step_posts h with
  | nothing hrec herr => exact .inl ⟨hrec, herr⟩
  | record r hrec herr => exact .inr (.inl ⟨r, hrec, herr⟩)
  | error e hrec herr _ => exact .inr (.inr ⟨e, hrec, herr⟩)

theorem errorEvent_code_ne_zero (e : ErrorEvent) : e.code ≠ 0 := by
  cases e <;> simp [ErrorEvent.code]

/-- Code 7 is among none of the codes an operation posts (60_exceptions.md R247). -/
theorem not_raisedBy_ackMismatch (i : Instr) : ¬ RaisedBy i .ackMismatch := by
  simp [RaisedBy, ErrorEvent.code]

/-- Settles O59: what a step adds to the errors is raised by its operation, which never is `AckMismatch`; the codes are the
table's. -/
theorem errorCodesAndWhoRaisesThem : Obligations.ErrorCodesAndWhoRaisesThem := by
  unfold Obligations.ErrorCodesAndWhoRaisesThem
  refine ⟨fun s t h hmem => ?ack, fun p q d n => ?codes, errorEvent_code_ne_zero,
    fun i s t e h he => (exec_posts h).allowed_of_errors_eq he⟩
  case ack =>
    obtain hold | ⟨i, hi⟩ := (step_posts h).mem_errors hmem
    · exact hold
    · exact absurd hi (not_raisedBy_ackMismatch i)
  case codes => exact ⟨rfl, rfl, rfl, rfl, rfl, rfl, rfl, rfl, rfl, rfl, rfl, rfl⟩

end Sys2Proof.Machine
end

section
/-! The system operations (48_system_ops.md) and the `reset` event (70_reset_and_hazards.md R280): the value each register takes
and gives, and the next states. -/

namespace Sys2Proof.Machine

theorem exec_cfgRd (reg : Reg) (s : State) :
    exec (.cfgRd reg) s = .next (respond (.register reg (readReg reg s)) s) := rfl

/-! ### What the registers take and give -/

/-- Bits 255:8 of a value written to `EXP_DS` are dropped (48_system_ops.md R233). -/
theorem writeReg_expDs (v : BitVec 256) (s : State) : writeReg .expDs v s = setExpDs (v.extractLsb' 0 8) s := by
  rw [writeReg, BitVec.setWidth_eq_extractLsb' (by decide)]

/-- Only bit 0 of a value written to `CFG` is kept (48_system_ops.md R233). -/
theorem cfgWritten_eq_ite (v : BitVec 256) : cfgWritten v = if v.getLsbD 0 then 1 else 0 := by
  have hone : v.setWidth 8 &&& 1 = (BitVec.ofBool ((v.setWidth 8).getLsbD 0)).setWidth 8 :=
    BitVec.and_one_eq_setWidth_ofBool_getLsbD
  rw [cfgWritten, hone, BitVec.getLsbD_setWidth]
  cases v.getLsbD 0 <;> rfl

theorem readReg_expDs_toNat (s : State) : (readReg .expDs s).toNat = s.expDs.toNat :=
  BitVec.toNat_setWidth_of_le (by decide)

/-- The reserved bits of `CFG` read 0 (10_state.md R32). -/
theorem readReg_cfg_toNat (s : State) : (readReg .cfg s).toNat = s.cfg.toNat % 2 := by
  rw [readReg, BitVec.toNat_setWidth_of_le (by decide), cfgValue, BitVec.toNat_and]
  exact Nat.and_one_is_mod _

/-- `STATUS` mirrors `SYN_STATE` (10_state.md R32). -/
theorem readReg_status_toNat (s : State) : (readReg .status s).toNat = if s.synState = .synced then 1 else 0 := by
  rw [readReg, statusValue]
  cases s.synState <;> rfl

/-! ### The operations -/

/-- Settles O48: the operation is the return to Scanning. -/
theorem rearm : Obligations.Rearm := fun _ _ _ => ⟨rfl, rfl⟩

/-- Settles O49: each register drops the bits it does not have, and `STATUS` ignores a write. -/
theorem configWrite : Obligations.ConfigWrite := by
  unfold Obligations.ConfigWrite
  intro v s st o
  refine ⟨?expDs, rfl, ?cfg, rfl, ⟨_, rfl, atWidth_toNat o.reg o.value⟩⟩
  case expDs => exact congrArg Host.Outcome.next (writeReg_expDs v s)
  case cfg => exact congrArg (fun c => Host.Outcome.next (setCfg c s)) (cfgWritten_eq_ite v)

/-- Settles O50: the value handed back is the register's reading. -/
theorem configRead : Obligations.ConfigRead := by
  unfold Obligations.ConfigRead
  intro reg s
  refine ⟨readReg reg s, exec_cfgRd reg s, ?expDs, ?expFd, ?cfg, ?status⟩
  case expDs => rintro rfl; exact readReg_expDs_toNat s
  case expFd => rintro rfl; rfl
  case cfg => rintro rfl; exact readReg_cfg_toNat s
  case status => rintro rfl; exact readReg_status_toNat s

/-- Settles O51: each reserved code only answers its refusal. -/
theorem reservedRequestsRefused : Obligations.ReservedRequestsRefused :=
  fun _ => ⟨rfl, rfl, rfl, rfl, rfl, rfl, rfl⟩

/-- Settles O2: the `reset` event selects no operation, and what the engine does with it leaves both buffers empty. -/
theorem resetEventClearsRegisters : Obligations.ResetEventClearsRegisters := by
  unfold Obligations.ResetEventClearsRegisters
  intro s rest hs
  exact ⟨[], [], 0, step_of_decode_error hs rfl⟩

end Sys2Proof.Machine
end
